-- ==== Sys2Proof/Word.lean ====
section
/-! DEFINITION. The words of the machine: a byte, and the 16-bit word of the CRC register, of an encoded
cell and of a bus address (00_scope.md R6). -/

namespace Sys2Proof

/-- Eight bits, bit 0 the least significant (R6). -/
abbrev Byte := BitVec 8

/-- Sixteen bits: the CRC register (R90), an encoded cell (R7), a host address (R44, R68). -/
abbrev Word16 := BitVec 16

end Sys2Proof
end

