-- ==== Sys2Proof/Config.lean ====
section
/-! DEFINITION. The parameters of 00_scope.md R5: what an implementation fixes. The ones the spec calls a
parameter stand in `Params`, which a state carries; the polynomial and the number of drives, which it
fixes, are constants. Values marked [from general knowledge] in the spec are PRESUMED
(notes/assumptions/4.md, 6.md). -/

namespace Sys2Proof

/-- Host addresses of the eight register ports and of CRU bit 0 (R5, 20_memory.md R44, R45). -/
structure PortMap where
  statusR : Word16
  trackR : Word16
  sectorR : Word16
  dataR : Word16
  commandW : Word16
  trackW : Word16
  sectorW : Word16
  dataW : Word16
  cruBase : Word16
deriving DecidableEq, Repr

/-- The names of the status bits (30_encoding.md R70 to R72, 60_exceptions.md R302). -/
inductive StatusBit where
  | busy
  /-- Type II and III. -/
  | drq
  /-- Type I; computed at read time, never stored. -/
  | index
  /-- Type I. -/
  | track0
  /-- Type II and III; never set (R308). -/
  | lostData
  | crcError
  /-- Type II and III. -/
  | notFound
  /-- Type I; the same bit as `NOT_FOUND` under another name (R71). -/
  | seekError
  /-- Type I. -/
  | headLoaded
  /-- Read Sector, FD179x. -/
  | recordType
  /-- Read Sector, FD1771: the complement of bit 1 of the data mark (R72). -/
  | recordHigh
  /-- Read Sector, FD1771: the complement of bit 0 of the data mark (R72). -/
  | recordLow
  | writeProtected
  /-- Never set (R308). -/
  | notReady
deriving DecidableEq, Repr

/-- `STATUS_LAYOUT` of one variant: the bit position of every status bit (R5, 30_encoding.md R70 to R72).
`NOT_FOUND` and `SEEK_ERROR` are one bit (R71). -/
structure StatusLayout where
  busy : Fin 8
  drq : Fin 8
  index : Fin 8
  track0 : Fin 8
  lostData : Fin 8
  crcError : Fin 8
  notFound : Fin 8
  headLoaded : Fin 8
  recordType : Fin 8
  recordHigh : Fin 8
  recordLow : Fin 8
  writeProtected : Fin 8
  notReady : Fin 8
deriving DecidableEq, Repr

/-- The position of a named bit. -/
def StatusLayout.position (l : StatusLayout) : StatusBit → Fin 8
  | .busy => l.busy
  | .drq => l.drq
  | .index => l.index
  | .track0 => l.track0
  | .lostData => l.lostData
  | .crcError => l.crcError
  | .notFound => l.notFound
  | .seekError => l.notFound
  | .headLoaded => l.headLoaded
  | .recordType => l.recordType
  | .recordHigh => l.recordHigh
  | .recordLow => l.recordLow
  | .writeProtected => l.writeProtected
  | .notReady => l.notReady

/-- The parameters a model of the block takes (R5; 93_implementation_defined.md P1 to P9, P11). -/
structure Params where
  /-- P1: the FD1771 status and command variant (true) or the FD179x variant (false). -/
  isFD1771 : Bool
  /-- P2: `CLOCKS_PER_REV`. -/
  clocksPerRev : Nat
  /-- P3: `INDEX_PULSE_CLOCKS`. -/
  indexPulseClocks : Nat
  /-- P4: `MAX_CYLINDER`. -/
  maxCylinder : Nat
  /-- P5: `TRACK_BYTES_FM`. -/
  trackBytesFm : Nat
  /-- P6: the `ADDR_*` parameters and `CRU_BASE`. -/
  ports : PortMap
  /-- P7: `STATUS_LAYOUT(isFD1771)` for the FD1771 variant. -/
  layout1771 : StatusLayout
  /-- P7: `STATUS_LAYOUT(isFD1771)` for the FD179x variant. -/
  layout179x : StatusLayout
  /-- `CRU_MOTOR`: the CRU bit of the motor pulse. It is latched only (30_encoding.md R69), so no rule
  reads the parameter. -/
  cruMotor : Fin 8
  /-- `CRU_XFER_EN`: the CRU bit of transfer-enable, latched only as well (R69). -/
  cruXferEn : Fin 8
  /-- `CRU_HEAD_LOAD`: the CRU bit of head-load, which Type I status reports (R69, R70). -/
  cruHeadLoad : Fin 8
  /-- P8: `CRC_INIT_FM`. -/
  crcInitFm : Word16
  /-- P8: `CRC_INIT_MFM`. -/
  crcInitMfm : Word16
  /-- P9: `ID_DATA_MAX_FM`, in bytes (90_conflicts.md C1). -/
  idDataMaxFm : Nat
  /-- P9: `ID_DATA_MAX_MFM`, in bytes. -/
  idDataMaxMfm : Nat
  /-- P11: `RESET_STEP_DIR`: true is +1, false is -1. -/
  resetStepIn : Bool
deriving DecidableEq, Repr

namespace Config

/-- The eight default port addresses and the default `CRU_BASE` (R5, R44, R45): PRESUMED. -/
def defaultPorts : PortMap :=
  { statusR := 0x5FF0#16, trackR := 0x5FF2#16, sectorR := 0x5FF4#16, dataR := 0x5FF6#16,
    commandW := 0x5FF8#16, trackW := 0x5FFA#16, sectorW := 0x5FFC#16, dataW := 0x5FFE#16,
    cruBase := 0x1100#16 }

/-- The default positions (30_encoding.md R70 to R72), the same in both variants but for the record type:
PRESUMED. -/
def defaultLayout : StatusLayout :=
  { busy := 0, drq := 1, index := 1, track0 := 2, lostData := 2, crcError := 3, notFound := 4,
    headLoaded := 5, recordType := 5, recordHigh := 6, recordLow := 5, writeProtected := 6, notReady := 7 }

/-- `isFD1771` of the machine that `State.reset` describes: OPEN in R5, so it has no value here. -/
opaque resetIsFD1771 : Bool

/-- `CLOCKS_PER_REV` of the machine that `State.reset` describes is one more than this: OPEN and
positive in R5. -/
opaque resetClocksPerRevPred : Nat

/-- `INDEX_PULSE_CLOCKS` of the machine that `State.reset` describes comes from this: OPEN in R5, with
`0 < INDEX_PULSE_CLOCKS <= CLOCKS_PER_REV`. -/
opaque resetIndexPulseSeed : Nat

/-- The parameters of the machine that `State.reset` describes: the spec's defaults where it gives one
(PRESUMED), and free values, inside the bounds R5 sets, where it gives none. -/
def resetParams : Params :=
  { isFD1771 := resetIsFD1771
    clocksPerRev := resetClocksPerRevPred + 1
    indexPulseClocks := resetIndexPulseSeed % (resetClocksPerRevPred + 1) + 1
    maxCylinder := 79
    trackBytesFm := 3125
    ports := defaultPorts
    layout1771 := defaultLayout
    layout179x := defaultLayout
    cruMotor := 1
    cruXferEn := 2
    cruHeadLoad := 3
    crcInitFm := 0xFFFF#16
    crcInitMfm := 0xCDB4#16
    idDataMaxFm := 33
    idDataMaxMfm := 45
    resetStepIn := false }

/-- `CRC_POLY` (R5, 40_crc16.md R90). -/
def crcPoly : Word16 := 0x1021#16

/-- `NUM_DRIVES` (R5; fixed, P10). -/
def numDrives : Nat := 3

end Config

/-- `STATUS_LAYOUT(isFD1771)` of this machine's variant (R5). -/
def Params.layout (p : Params) : StatusLayout := if p.isFD1771 then p.layout1771 else p.layout179x

/-- The mask of a status bit in this machine's layout. -/
def Params.mask (p : Params) (b : StatusBit) : Byte := BitVec.twoPow 8 (p.layout.position b).val

/-- Bits that can be set together in one status byte have positions of their own: the stored bits of a
Type I status with `DRQ`, which a command write looks for in any status; `INDEX` beside the stored bits of
Type I; the bits of a Type II or III status; and, after a Read Sector, the bits `reported` for the data mark.
R5 does not say it; it is what "bit position of every status bit" needs (notes/assumptions/5.md). -/
def StatusLayout.wf (l : StatusLayout) (reported : List (Fin 8)) : Bool :=
  decide ([l.busy, l.drq, l.track0, l.crcError, l.notFound, l.headLoaded, l.writeProtected, l.notReady].Nodup) &&
    decide ([l.index, l.busy, l.track0, l.crcError, l.notFound, l.headLoaded, l.writeProtected,
      l.notReady].Nodup) &&
    decide ([l.busy, l.drq, l.lostData, l.crcError, l.notFound, l.writeProtected, l.notReady].Nodup) &&
    decide ((reported ++ [l.busy, l.drq, l.lostData, l.crcError, l.notFound, l.notReady]).Nodup)

/-- The bounds R5 sets on the parameters. That a Write Track expects at least one byte is not in R5; it
is what 10_state.md R18 (`bytesLeft > 0` while a transfer is in progress) needs. Nor is it in R5 that the
named bits of a status, and the named bits of the latch, differ (notes/assumptions/5.md). -/
def Params.wf (p : Params) : Bool :=
  decide (0 < p.clocksPerRev) && decide (0 < p.indexPulseClocks) &&
    decide (p.indexPulseClocks ≤ p.clocksPerRev) && decide (0 < p.trackBytesFm) &&
    p.layout1771.wf [p.layout1771.recordHigh, p.layout1771.recordLow] &&
    p.layout179x.wf [p.layout179x.recordType, p.layout179x.writeProtected] &&
    decide ([p.cruMotor, p.cruXferEn, p.cruHeadLoad, 4, 5, 6, 7].Nodup)

/-- The part of a host address a port compares: the reference mapping decodes even addresses
(30_encoding.md R68, mask 0xFFFE). -/
def portKey (a : Word16) : Word16 := a &&& 0xFFFE#16

/-- The port addresses can be told apart, reads among reads and writes among writes, and the eight CRU
bits do not wrap around the address space (20_memory.md R44, R45). No rule asks it of the parameters, and
`Params.wf` does not either: it is a premise of the claims about addresses (notes/assumptions/42.md). -/
def PortMap.wf (m : PortMap) : Bool :=
  decide ([portKey m.statusR, portKey m.trackR, portKey m.sectorR, portKey m.dataR].Nodup) &&
    decide ([portKey m.commandW, portKey m.trackW, portKey m.sectorW, portKey m.dataW].Nodup) &&
    decide (m.cruBase.toNat + 8 ≤ 65536)

end Sys2Proof
end

