-- ==== Sys2Proof/Syntax.lean ====
section
/-! DEFINITION. The operations of the block, one constructor of `Instr` per row of spec/opcode_table.json
(00_scope.md R9), with the operand types they use. -/

namespace Sys2Proof

/-- The two encodings a codec operation works with (43_fm_mfm_decoder.md R140). -/
inductive Density where
  | fm
  | mfm
deriving DecidableEq, Repr

/-- `format` of a track (10_state.md R28); `unknown` is an unformatted track. -/
inductive TrackFormat where
  | fm
  | mfm
  | unknown
deriving DecidableEq, Repr

/-- Which end of a byte a bit-stream reader delivers first (10_state.md R23). -/
inductive BitOrder where
  | lsb
  | msb
deriving DecidableEq, Repr

/-- A track of an inserted image, by drive, physical cylinder and head (10_state.md R19, R20). -/
structure TrackRef where
  drive : Nat
  cylinder : Nat
  head : Nat
deriving DecidableEq, Repr

/-- A sector view: byte indices of the ID address mark and of the data mark in the owning track's
`data` (10_state.md R29). -/
structure View where
  idOff : Nat
  dataOff : Nat
deriving DecidableEq, Repr

/-- A DataFragment (10_state.md R25); `clock` is -1 or a clock byte. -/
structure Fragment where
  bitOffsetStart : Nat
  bitOffsetEnd : Nat
  clock : Int
  byteData : List Byte
deriving DecidableEq, Repr

/-- Where `Decode` takes its raw bits from: given directly, or from a bit-stream reader until `EOF`
(43_fm_mfm_decoder.md R140). -/
inductive RawSource where
  | bits (raw : List Bool)
  | reader (handle : Nat)
deriving DecidableEq, Repr

/-- The eleven commands that the top nibble of a command byte selects (30_encoding.md R62). -/
inductive Cmd where
  | restore
  | seek
  | step
  | stepIn
  | stepOut
  | readSector
  | writeSector
  | readAddress
  | forceInterrupt
  | readTrack
  | writeTrack
deriving DecidableEq, Repr

/-- What the host's bus carries in one operation, before it is decoded: a logical command byte in the
script form of 30_encoding.md R81, a memory-mapped read or write (the write with its bus byte), a
CRU bit write or read, or a byte of a Write Track stream. -/
inductive HostAccess where
  | command (c : Byte)
  | memRead (addr : Word16)
  | memWrite (addr : Word16) (bus : Byte)
  | cruWrite (addr : Word16) (v : Bool)
  | cruRead (addr : Word16)
  | token (b : Byte)
deriving DecidableEq, Repr

/-- The encoding formats of the opcode table (30_encoding.md R60); a `unit` row has no bit encoding. -/
inductive Format where
  | cmd8
  | port
  | cru8
  | token8
  | unit
deriving DecidableEq, Repr

/-- One constructor per row of spec/opcode_table.json. Flag operands of a command are those of
30_encoding.md R63 to R66, also the ones no rule reads. -/
inductive Instr where
  -- CMD8, Type I: R251 to R255, flags of R63
  | restore (h v : Bool) (r : BitVec 2)
  | seek (h v : Bool) (r : BitVec 2)
  | step (u h v : Bool) (r : BitVec 2)
  | stepin (u h v : Bool) (r : BitVec 2)
  | stepout (u h v : Bool) (r : BitVec 2)
  -- CMD8, Type II: R274, R277, flags of R64
  | rdsec (m sb e ca1 a0 : Bool)
  | wrsec (m sb e ca1 a0 : Bool)
  -- CMD8, Type III and Type IV: R278, R262, R280, R281, flags of R65, R66
  | rdaddr (x : BitVec 4)
  | forceint (x : BitVec 4)
  | rdtrk (x : BitVec 4)
  | wrtrk (x : BitVec 4)
  -- PORT: R222 to R229
  | rsta
  | rtrk
  | rsec
  | rdat
  | wcmd (bus : Byte)
  | wtrk (bus : Byte)
  | wsec (bus : Byte)
  | wdat (bus : Byte)
  -- CRU8: R230
  | cru0 (v : Bool)
  | cru1 (v : Bool)
  | cru2 (v : Bool)
  | cru3 (v : Bool)
  | cru4 (v : Bool)
  | cru5 (v : Bool)
  | cru6 (v : Bool)
  | cru7 (v : Bool)
  -- TOKEN8: R199 to R202; the operand is the row's free bits
  | lit00to7F (x : BitVec 7)
  | lit80toBF (x : BitVec 6)
  | litC0toDF (x : BitVec 5)
  | litE0toEF (x : BitVec 4)
  | litF0toF3 (x : BitVec 2)
  | litF4
  | tokF5
  | tokF6
  | tokCrc
  | tokDam (x : BitVec 2)
  | tokIxam
  | tokFd
  | tokIdam
  | litFF
  -- UNIT, the CRC unit: R92 to R104
  | crcInit (v : Word16)
  | crcUpdateBit (b : Bool)
  | crcUpdateByte (d : Byte)
  | crcOver (preset : Word16) (bytes : List Byte)
  | crcAppend (preset : Word16) (bytes : List Byte)
  | verifyId (t : TrackRef) (sec : View)
  | verifyData (t : TrackRef) (sec : View)
  | dataModified (t : TrackRef) (sec : View)
  -- UNIT, the bit-stream reader: R110 to R114
  | newBitStream (buf : List Byte) (totalBits : Nat) (order : BitOrder) (skip : Bool)
  | bitNext (handle : Nat)
  | bitSeek (handle : Nat) (o : Nat)
  | bitPositions (handle : Nat)
  -- UNIT, the sync detector: R126, R128, R132, R133 (`filled` is the spec's `have`)
  | syncTestFm (reg : Word16) (filled : Nat) (hunting : Bool) (cell : Nat)
  | syncTestMfm (reg : Word16) (filled : Nat) (hunting : Bool) (cell : Nat)
  | lostClockFm (reg : Word16) (cell : Nat)
  | lostClockMfm (reg : Word16) (cell : Nat)
  -- UNIT, the codec: R140, R160
  | decode (fmt : TrackFormat) (src : RawSource)
  | encode (fmt : TrackFormat) (frags : List Fragment)
  -- UNIT, the sector framer: R177 to R182
  | sectorSize (t : TrackRef) (sec : View)
  | sectorMatches (t : TrackRef) (sec : View) (c h n : Int)
  | sectorRead (t : TrackRef) (sec : View)
  | sectorValidId (t : TrackRef) (sec : View)
  | sectorValidData (t : TrackRef) (sec : View)
  | sectorWrite (t : TrackRef) (sec : View) (mark : Byte) (buf : List Byte)
  -- UNIT, the track buffer: R198, R204, R205, R210
  | trackWrite (t : TrackRef) (fmt : TrackFormat) (raw : List Byte)
  | trackRawWrite (t : TrackRef) (fmt : TrackFormat) (clock : List Nat) (data : List Byte)
  | trackLocateSectors (t : TrackRef)
  | trackGetSector (t : TrackRef) (c h n : Int)
  -- UNIT, the environment's reset: R330
  | reset
deriving DecidableEq, Repr

/-- The opcode table's format of each row (30_encoding.md R60). -/
def Instr.format : Instr → Format
  | .restore _ _ _ => .cmd8
  | .seek _ _ _ => .cmd8
  | .step _ _ _ _ => .cmd8
  | .stepin _ _ _ _ => .cmd8
  | .stepout _ _ _ _ => .cmd8
  | .rdsec _ _ _ _ _ => .cmd8
  | .wrsec _ _ _ _ _ => .cmd8
  | .rdaddr _ => .cmd8
  | .forceint _ => .cmd8
  | .rdtrk _ => .cmd8
  | .wrtrk _ => .cmd8
  | .rsta => .port
  | .rtrk => .port
  | .rsec => .port
  | .rdat => .port
  | .wcmd _ => .port
  | .wtrk _ => .port
  | .wsec _ => .port
  | .wdat _ => .port
  | .cru0 _ => .cru8
  | .cru1 _ => .cru8
  | .cru2 _ => .cru8
  | .cru3 _ => .cru8
  | .cru4 _ => .cru8
  | .cru5 _ => .cru8
  | .cru6 _ => .cru8
  | .cru7 _ => .cru8
  | .lit00to7F _ => .token8
  | .lit80toBF _ => .token8
  | .litC0toDF _ => .token8
  | .litE0toEF _ => .token8
  | .litF0toF3 _ => .token8
  | .litF4 => .token8
  | .tokF5 => .token8
  | .tokF6 => .token8
  | .tokCrc => .token8
  | .tokDam _ => .token8
  | .tokIxam => .token8
  | .tokFd => .token8
  | .tokIdam => .token8
  | .litFF => .token8
  | .crcInit _ => .unit
  | .crcUpdateBit _ => .unit
  | .crcUpdateByte _ => .unit
  | .crcOver _ _ => .unit
  | .crcAppend _ _ => .unit
  | .verifyId _ _ => .unit
  | .verifyData _ _ => .unit
  | .dataModified _ _ => .unit
  | .newBitStream _ _ _ _ => .unit
  | .bitNext _ => .unit
  | .bitSeek _ _ => .unit
  | .bitPositions _ => .unit
  | .syncTestFm _ _ _ _ => .unit
  | .syncTestMfm _ _ _ _ => .unit
  | .lostClockFm _ _ => .unit
  | .lostClockMfm _ _ => .unit
  | .decode _ _ => .unit
  | .encode _ _ => .unit
  | .sectorSize _ _ => .unit
  | .sectorMatches _ _ _ _ _ => .unit
  | .sectorRead _ _ => .unit
  | .sectorValidId _ _ => .unit
  | .sectorValidData _ _ => .unit
  | .sectorWrite _ _ _ _ => .unit
  | .trackWrite _ _ _ => .unit
  | .trackRawWrite _ _ _ _ => .unit
  | .trackLocateSectors _ => .unit
  | .trackGetSector _ _ _ _ => .unit
  | .reset => .unit

/-- The format in which a host access arrives (30_encoding.md R60). -/
def HostAccess.format : HostAccess → Format
  | .command _ => .cmd8
  | .memRead _ => .port
  | .memWrite _ _ => .port
  | .cruWrite _ _ => .cru8
  | .cruRead _ => .cru8
  | .token _ => .token8

/-- FM or MFM, or none for `Unknown`. -/
def TrackFormat.density? : TrackFormat → Option Density
  | .fm => some .fm
  | .mfm => some .mfm
  | .unknown => none

/-- The track format of an encoding. -/
def Density.format : Density → TrackFormat
  | .fm => .fm
  | .mfm => .mfm

end Sys2Proof
end

