-- ==== Sys2Proof/Machine/State.lean ====
section
/-! DEFINITION. The state of the block (10_state.md), as plain data, the reasons an operation is refused, and
the state after reset (10_state.md R32). -/

namespace Sys2Proof.Machine

/-- A DiskTrack (10_state.md R28). `data` is the track byte space S1, dense from index 0 to
`data.length - 1` (20_memory.md R40, R41); `clock` is the bit-offset list S2. -/
structure Track where
  dirty : Bool
  format : TrackFormat
  clock : List Nat
  data : List Byte
  sector : List View
deriving DecidableEq, Repr

/-- A track allocated and not yet written (R32, last column of the `track` row). -/
def Track.blank : Track :=
  { dirty := false, format := .unknown, clock := [], data := [], sector := [] }

/-- The part of a DiskImage the block consumes (10_state.md R27): its geometry, its write-protect flag
and its tracks, the track of cylinder `c` and head `h` at index `c * heads + h`. -/
structure DiskImage where
  cylinders : Nat
  heads : Nat
  writeProtected : Bool
  tracks : List Track
deriving DecidableEq, Repr

/-- `drives[1..NUM_DRIVES]`: for each drive, none or a reference to an inserted DiskImage (10_state.md R20;
three drives, P10). A reference is the place of the image in `State.images` (DESIGN CHOICE,
notes/assumptions/37.md). -/
structure Drives where
  drive1 : Option Nat
  drive2 : Option Nat
  drive3 : Option Nat
deriving DecidableEq, Repr

/-- The image an `Insert` names (70_reset_and_hazards.md R334): one the block has not seen, or the one a
reference stands for, which may be in another drive or ejected (notes/assumptions/37.md). -/
inductive ImageOperand where
  | new (img : DiskImage)
  | known (handle : Nat)
deriving DecidableEq, Repr

/-- `cmdInProgress` (10_state.md R12). -/
inductive Transfer where
  | none
  | readSector
  | writeSector
  | readAddress
  | readTrack
  | writeTrack
deriving DecidableEq, Repr

/-- `stepDir` (10_state.md R19): `inward` is +1, toward higher cylinders, `outward` is -1. -/
inductive StepDir where
  | inward
  | outward
deriving DecidableEq, Repr

/-- `xferTarget` when it is not `none`: the track a write transfer commits to, and its sector for a Write
Sector (10_state.md R19). -/
structure XferTarget where
  track : TrackRef
  sector : Option View
deriving DecidableEq, Repr

/-- A bit-stream reader (10_state.md R23). Its `curByte` is a cache of `buf` and is left out, as R115
allows. -/
structure BitReader where
  buf : List Byte
  totalBits : Nat
  bitOffset : Nat
  skip : Bool
  order : BitOrder
deriving DecidableEq, Repr

/-- The walk of 46_track_buffer.md R198 between two tokens: its format and the lists `d` and `ck`. Its
running CRC `c` is the register `crc` of the CRC unit. -/
structure Walk where
  density : Density
  data : List Byte
  clock : List Nat
deriving DecidableEq, Repr

/-- What an operation returns to its caller. -/
inductive Result where
  | nothing
  /-- A bus byte (R221). -/
  | bus (b : Byte)
  /-- A bit, or `EOF` when there is none (R112). -/
  | bit (b : Option Bool)
  | truth (b : Bool)
  | word (w : Word16)
  | number (n : Nat)
  | bytes (l : List Byte)
  /-- `offset()`, `size()`, `remaining()` (R111). -/
  | positions (offset size remaining : Nat)
  /-- The handle of a reader just created (R110). -/
  | reader (handle : Nat)
  /-- A sync report `(clockId, dataByte)`, or none (R125). -/
  | sync (m : Option (Byte × Byte))
  | fragments (l : List Fragment)
  /-- A raw bit stream (R160). -/
  | raw (l : List Bool)
  /-- A sector view, or none (R210). -/
  | view (v : Option View)
deriving DecidableEq, Repr

/-- One coming operation of the host or of its environment (47_controller_interface.md R220). -/
inductive Event where
  /-- A bus access, still undecoded. -/
  | access (a : HostAccess)
  /-- A direct call of an operation: the unit operations have no encoding and arrive only so. -/
  | call (i : Instr)
  /-- `AT t`: the clock value of the accesses that follow (30_encoding.md R80). -/
  | clockIs (t : Nat)
  /-- `CrcValue()` (40_crc16.md R91): an operation of the CRC unit that the opcode table has no row for
  (notes/assumptions/39.md). -/
  | crcValue
  /-- `Insert(k, img)` (70_reset_and_hazards.md R334). -/
  | insert (k : Nat) (img : ImageOperand)
  /-- `Eject(k)` (R334). -/
  | eject (k : Nat)
deriving DecidableEq, Repr

/-- The state: the spec's elements (R10 to R30), then the model's own. R10 says that only the controller
state and the track state persist between host operations; R22, R23, R91 and R198 carry the CRC register,
the cursor of a reader and a token walk from one unit operation to the next. The model keeps these three
through host accesses as well (DESIGN CHOICE, notes/assumptions/36.md). -/
structure State where
  -- controller (R11 to R19)
  hardwareBits : Byte
  driveSelect : Nat
  headSelect : BitVec 1
  trackSelect : Nat
  trackRegister : Byte
  sectorRegister : Byte
  dataRegister : Byte
  statusRegister : Byte
  statusTypeI : Bool
  dataMark : Byte
  dataBuffer : List Byte
  bytesExpected : Nat
  bytesLeft : Nat
  readDataPtr : Nat
  cmdInProgress : Transfer
  startClock : Nat
  stepDir : StepDir
  xferTarget : Option XferTarget
  -- the drives (R20), and the images with their tracks and sectors (R27 to R29), in the order of their
  -- first insertion; an ejected image keeps its place (notes/assumptions/37.md)
  drives : Drives
  images : List DiskImage
  -- the CRC unit (R22), with whether it was initialised (R32)
  crc : Word16
  crcReady : Bool
  -- the bit-stream readers (R23)
  readers : List BitReader
  -- the open token walk (R198)
  walk : Option Walk
  -- the model's own: parameters, clock input, coming operations, last result, ghost count of the
  -- anomaly log, drive of the staged transfer
  cfg : Params
  now : Nat
  pending : List Event
  result : Result
  anomalies : Nat
  xferDrive : Nat
deriving DecidableEq, Repr

/-- No operation of the block faults: "No operation of the block faults, traps, vectors or aborts the
host" (60_exceptions.md R300). So there is no reason, and that is the spec's own word (safe). -/
inductive Fault : Type
deriving DecidableEq, Repr

/-- Why an operation is refused: a precondition violation (93_implementation_defined.md, section 1.2).
Every one is safe: the machine stops where the spec promises nothing. -/
inductive Refusal where
  /-- An instruction without a meaning, raised by an arm of `exec`; no arm is left that raises it. Safe. -/
  | notModelled (mnemonic : String)
  /-- F1: a CRU read; raised by `step`. Safe. -/
  | cruRead
  /-- F2: a clock value smaller than an earlier one; raised by the `AT` event. Safe. -/
  | clockDecreases
  /-- F5: a sector view that is not in its track's sector list; raised by the sector operations and by
  the commit of a Write Sector. Safe. -/
  | staleView
  /-- F6: a fragment list that `Encode` does not admit. Safe. -/
  | badFragments
  /-- F7, F8: the format `Unknown` where FM or MFM is needed; raised by `Decode`, `Encode`, track
  `Write`, and by a CRC check of a view on an `Unknown` track (which no run reaches). Safe. -/
  | unknownFormat
  /-- F9: `RawWrite` with a clock list that is not ascending. Safe. -/
  | clockNotAscending
  /-- F10: `NewBitStream` with more bits than the buffer holds. Safe. -/
  | bitStreamTooLong
  /-- F11: the CRC register read before `CrcInit` (10_state.md R32, 70_reset_and_hazards.md R340 U8);
  raised by `CrcValue`. Safe. -/
  | crcNotInitialised
  /-- F12: an index outside the buffer it is applied to; raised by `MemRead`, `MemWrite`, and by the
  transfer step. Safe. -/
  | outOfBuffer
  /-- F13: `RawWrite` while a transfer is in progress. Safe. -/
  | loaderDuringTransfer
  /-- F14: `Insert` or `Eject` on a drive with a transfer in progress. Safe. -/
  | driveInUse
  /-- F15: `Insert` or `Eject` of a drive that does not exist. Safe. -/
  | noSuchDrive
  /-- `Insert` of a reference that stands for no image. Safe. -/
  | noSuchImage
  /-- R335: `Insert` of an image whose tracks break the invariants of 10_state.md R30. Safe. -/
  | badImage
  /-- A unit operation, or a commit, on a track that no inserted image has. Safe. -/
  | noSuchTrack
  /-- A bit-stream operation on a reader that was never created. Safe. -/
  | noSuchReader
  /-- A write transfer whose target is missing or of the other kind; no run reaches it. Safe. -/
  | noTransferTarget
deriving DecidableEq, Repr

/-- The outcome of an operation. -/
abbrev Out := Host.Outcome State Fault Refusal

/-- `RESET_STEP_DIR` (R5, R32). -/
def resetStepDir (p : Params) : StepDir := if p.resetStepIn then .inward else .outward

/-- The state right after reset, for given parameters: the controller as 10_state.md R32 says, no image
inserted, no reader created, the CRC register not initialised, nothing pending. -/
def State.resetWith (p : Params) : State :=
  { hardwareBits := 0x00#8
    driveSelect := 0
    headSelect := 0#1
    trackSelect := 0
    trackRegister := 0x00#8
    sectorRegister := 0x00#8
    dataRegister := 0x00#8
    statusRegister := 0x00#8
    statusTypeI := true
    dataMark := 0xFB#8
    dataBuffer := []
    bytesExpected := 0
    bytesLeft := 0
    readDataPtr := 0
    cmdInProgress := .none
    startClock := 0
    stepDir := resetStepDir p
    xferTarget := none
    drives := { drive1 := none, drive2 := none, drive3 := none }
    images := []
    crc := 0x0000#16
    crcReady := false
    readers := []
    walk := none
    cfg := p
    now := 0
    pending := []
    result := .nothing
    anomalies := 0
    xferDrive := 0 }

/-- The machine right after reset. -/
def State.reset : State := State.resetWith Config.resetParams

end Sys2Proof.Machine
end

