-- ==== Sys2Proof/Machine/Ops.lean ====
section
/-! DEFINITION. The named operations over state: putting operations in sequence, `MemRead` and `MemWrite`
(20_memory.md R41), the tracks of the inserted images (10_state.md R20, R27), raising a condition
(60_exceptions.md R306) and handing a result to the caller. -/

namespace Sys2Proof.Machine

/-- One operation after another: a refusal ends the sequence. -/
def andThen (o : Out) (f : State → Out) : Out :=
  match o with
  | .next s => f s
  | .fault r => .fault r
  | .refused r => .refused r

/-- Go on with a value, or refuse where there is none. -/
def orRefuse {α : Type} (r : Refusal) (x : Option α) (f : α → Out) : Out :=
  match x with
  | some a => f a
  | none => .refused r

/-! ### The track byte space S1 -/

/-- `MemRead(addr, n)`: the bytes `data[addr .. addr+n-1]`, defined only inside `data` (R41). -/
def memRead (data : List Byte) (addr n : Nat) : Option (List Byte) :=
  if addr + n ≤ data.length then some ((data.drop addr).take n) else none

/-- `MemWrite(addr, n, v)` with `n = len(v)`: those bytes replaced, the length unchanged, defined only
inside `data` (R41). -/
def memWrite (data : List Byte) (addr : Nat) (v : List Byte) : Option (List Byte) :=
  if addr + v.length ≤ data.length then
    some (data.take addr ++ v ++ data.drop (addr + v.length))
  else none

/-! ### Drives, images, tracks -/

/-- `drives[k]`; drive 0 stands for "no drive selected" and holds nothing (10_state.md R20). -/
def Drives.get (d : Drives) (k : Nat) : Option Nat :=
  match k with
  | 1 => d.drive1
  | 2 => d.drive2
  | 3 => d.drive3
  | _ => none

/-- `drives[k] <- x`, for `k` in 1..3. -/
def Drives.set (d : Drives) (k : Nat) (x : Option Nat) : Drives :=
  match k with
  | 1 => { d with drive1 := x }
  | 2 => { d with drive2 := x }
  | 3 => { d with drive3 := x }
  | _ => d

/-- Where the track of a cylinder and head stands in `tracks`. -/
def DiskImage.trackIndex (img : DiskImage) (cylinder head : Nat) : Nat :=
  cylinder * img.heads + head

/-- `GetTrack(cylinder, head)`: none outside the image's geometry (10_state.md R20, R27). -/
def DiskImage.getTrack (img : DiskImage) (cylinder head : Nat) : Option Track :=
  if cylinder < img.cylinders ∧ head < img.heads then img.tracks[img.trackIndex cylinder head]?
  else none

/-- The image with one track replaced; geometry and write-protect flag stay (R335). -/
def DiskImage.putTrack (img : DiskImage) (cylinder head : Nat) (t : Track) : DiskImage :=
  { img with tracks := img.tracks.set (img.trackIndex cylinder head) t }

/-- The image the reference in drive `k` stands for, or none (R20). -/
def State.imageIn (s : State) (k : Nat) : Option DiskImage := (s.drives.get k).bind (s.images[·]?)

/-- The track a reference names, or none. -/
def State.track? (s : State) (r : TrackRef) : Option Track :=
  (s.imageIn r.drive).bind (·.getTrack r.cylinder r.head)

/-- The state with the track a reference names replaced, in the image itself: every drive that holds a
reference to the image sees it (R20). -/
def State.putTrack (s : State) (r : TrackRef) (t : Track) : State :=
  match s.drives.get r.drive with
  | some h => { s with images := s.images.modify h (·.putTrack r.cylinder r.head t) }
  | none => s

/-- The image in the selected drive, or none (`driveSelect = 0` selects none; R20). -/
def State.curImage (s : State) : Option DiskImage := s.imageIn s.driveSelect

/-- `ImagePresent()` (47_controller_interface.md R222). -/
def State.imagePresent (s : State) : Bool := (s.drives.get s.driveSelect).isSome

/-- The selected drive holds an image whose `IsWriteProtected()` is true (R258, R275). -/
def State.writeProtected (s : State) : Bool :=
  match s.curImage with
  | some img => img.writeProtected
  | none => false

/-- The track the head of the selected drive is over. -/
def State.curRef (s : State) : TrackRef :=
  { drive := s.driveSelect, cylinder := s.trackSelect, head := s.headSelect.toNat }

/-- `CurTrack()` (10_state.md R20). -/
def State.curTrack (s : State) : Option Track := s.track? s.curRef

/-! ### Conditions and results -/

/-- `raise X` (60_exceptions.md R306): the condition's bit is set in the status register. Nothing is
saved and control goes nowhere (R316), so this is the whole of taking a condition; a Type II or III
command ends with it, a Type I verification goes on. There is nothing to return from (R317): the bit
stays until `clearConditions`. -/
def raiseCondition (mask : Byte) (s : State) : State :=
  { s with statusRegister := s.statusRegister ||| mask }

/-- The status register is cleared at the start of every command other than Force Interrupt, which is
the only way a raised condition goes away (47_controller_interface.md R233, 60_exceptions.md R317). -/
def clearConditions (s : State) : State := { s with statusRegister := 0x00#8 }

/-- What the operation returns to its caller. -/
def reply (r : Result) (s : State) : State := { s with result := r }

/-- The CRC register as an operation that ran over it leaves it (10_state.md R22). -/
def leaveCrc (w : Word16) (s : State) : State := { s with crc := w, crcReady := true }

/-- The same, where the operation may not have used the register at all. -/
def leaveCrc? (w : Option Word16) (s : State) : State :=
  match w with
  | some w => leaveCrc w s
  | none => s

end Sys2Proof.Machine
end

