-- ==== Sys2Proof/Machine/Operands.lean ====
section
/-! DEFINITION. The operand forms: bus bytes, command flag fields, range arithmetic of head and track
register, tracks and sector views named by an operation, the fields of an ID. -/

namespace Sys2Proof.Machine

/-- Bus inversion, the same in both directions (20_memory.md R46). -/
def invert (b : Byte) : Byte := ~~~b

/-! ### Range arithmetic of Type I commands (48_controller_type1_type4.md R256) -/

/-- `+1` or `-1`. -/
def StepDir.toInt : StepDir → Int
  | .inward => 1
  | .outward => -1

/-- `Clamp(x) = max(0, min(MAX_CYLINDER, x))`. -/
def clampTrack (p : Params) (x : Int) : Nat := (max 0 (min (p.maxCylinder : Int) x)).toNat

/-- `Sat8(x) = max(0, min(255, x))`. -/
def sat8 (x : Int) : Byte := BitVec.ofNat 8 (max 0 (min 255 x)).toNat

/-! ### Cells (00_scope.md R7) -/

/-- `Interleave(c, d)`: `w[2i+1] = c[i]`, `w[2i] = d[i]`. -/
def interleave (c d : Byte) : Word16 :=
  [7, 6, 5, 4, 3, 2, 1, 0].foldl
    (fun w i => (w <<< 2) ||| (BitVec.ofBool (c.getLsbD i) ++ BitVec.ofBool (d.getLsbD i)).setWidth 16)
    0#16

/-- `DataOf(w)`: the byte `d` with `d[i] = w[2i]` (the source's `Collapse`). -/
def dataOf (w : Word16) : Byte :=
  [7, 6, 5, 4, 3, 2, 1, 0].foldl
    (fun d i => (d <<< 1) ||| (BitVec.ofBool (w.getLsbD (2 * i))).setWidth 8) 0#8

/-- `ClockOf(w)`: the byte `c` with `c[i] = w[2i+1]`. -/
def clockOf (w : Word16) : Byte :=
  [7, 6, 5, 4, 3, 2, 1, 0].foldl
    (fun c i => (c <<< 1) ||| (BitVec.ofBool (w.getLsbD (2 * i + 1))).setWidth 8) 0#8

/-- The bits of a cell in time order, `w[15]` first (R7). -/
def cellBits (w : Word16) : List Bool :=
  [15, 14, 13, 12, 11, 10, 9, 8, 7, 6, 5, 4, 3, 2, 1, 0].map (fun i => w.getLsbD i)

/-- The cell whose bits, `w[15]` first, are these sixteen. -/
def cellOfBits (bits : List Bool) : Word16 :=
  bits.foldl (fun w b => (w <<< 1) ||| (BitVec.ofBool b).setWidth 16) 0#16

/-! ### ID fields (30_encoding.md R73, R75; 45_sector_framer.md R176, R177) -/

/-- `128 << (N & 3)` (R75). -/
def sizeOfCode (n : Byte) : Nat := 128 <<< (n &&& 3#8).toNat

/-- `IdMark(sec)` (R176). -/
def idMark? (data : List Byte) (v : View) : Option Byte := data[v.idOff]?
/-- `Cylinder(sec)` (R176). -/
def cylinder? (data : List Byte) (v : View) : Option Byte := data[v.idOff + 1]?
/-- `Head(sec)` (R176). -/
def head? (data : List Byte) (v : View) : Option Byte := data[v.idOff + 2]?
/-- `SectorId(sec)` (R176). -/
def sectorId? (data : List Byte) (v : View) : Option Byte := data[v.idOff + 3]?
/-- `SizeCode(sec)` (R176). -/
def sizeCode? (data : List Byte) (v : View) : Option Byte := data[v.idOff + 4]?
/-- `DataMark(sec)` (R176). -/
def dataMark? (data : List Byte) (v : View) : Option Byte := data[v.dataOff]?

/-- `Size(sec)` (R177). -/
def size? (data : List Byte) (v : View) : Option Nat := (sizeCode? data v).map sizeOfCode

/-! ### Tracks and views as operands -/

/-- Go on with the track an operation names. -/
def withTrack (r : TrackRef) (s : State) (f : Track → Out) : Out :=
  orRefuse .noSuchTrack (s.track? r) f

/-- Go on with the track and a view of it: the view must be in the track's sector list
(45_sector_framer.md R175). -/
def withView (r : TrackRef) (v : View) (s : State) (f : Track → Out) : Out :=
  withTrack r s fun t => if v ∈ t.sector then f t else .refused .staleView

/-- Go on with FM or MFM; the format `Unknown` is refused (R140, R160, R198). -/
def withDensity (fmt : TrackFormat) (f : Density → Out) : Out :=
  orRefuse .unknownFormat fmt.density? f

end Sys2Proof.Machine
end

