-- ==== Sys2Proof/Machine/Flags.lean ====
section
/-! DEFINITION. The bits of the status register: how each is set, cleared and read (30_encoding.md R70 to R72,
60_exceptions.md R302, R326). -/

namespace Sys2Proof.Machine

/-- Some bit of the mask is set. -/
def anySet (status mask : Byte) : Bool := status &&& mask != 0x00#8

/-- The bits of the mask cleared. -/
def clearBits (status mask : Byte) : Byte := status &&& ~~~mask

/-- A mask where a condition holds, no bit where it does not. -/
def maskIf (b : Bool) (mask : Byte) : Byte := if b then mask else 0x00#8

/-- `statusRegister.DRQ = 1`. -/
def State.drqSet (s : State) : Bool := anySet s.statusRegister (s.cfg.mask .drq)

/-- `statusRegister.BUSY = 1`. -/
def State.busySet (s : State) : Bool := anySet s.statusRegister (s.cfg.mask .busy)

/-- The record type of an FD1771: the two bits are the complement of bits 1 and 0 of the data mark,
`status[6:5] = ~dataMark[1:0]` in the default layout (30_encoding.md R72). -/
def recordBits1771 (p : Params) (mark : Byte) : Byte :=
  maskIf (!mark.getLsbD 1) (p.mask .recordHigh) ||| maskIf (!mark.getLsbD 0) (p.mask .recordLow)

/-- What a Read Sector reports of the data mark, by variant (R71, R72; 49_controller_type2_type3.md
R274). -/
def reportMark (p : Params) (mark status : Byte) : Byte :=
  if p.isFD1771 then
    clearBits status (p.mask .recordHigh ||| p.mask .recordLow) ||| recordBits1771 p mark
  else status ||| maskIf (mark == 0xF8#8) (p.mask .recordType)

/-- Type I status assembly (48_controller_type1_type4.md R258): `TRACK0`, `WRITE_PROTECTED` and
`HEAD_LOADED`, sampled now. -/
def typeOneBits (s : State) : Byte :=
  maskIf (s.trackSelect == 0) (s.cfg.mask .track0) |||
    maskIf s.writeProtected (s.cfg.mask .writeProtected) |||
    maskIf (s.hardwareBits.getLsbD s.cfg.cruHeadLoad.val) (s.cfg.mask .headLoaded)

/-- The index pulse shows in a Status read: Type I status, an image in the selected drive, and the clock
inside the window (47_controller_interface.md R222, 60_exceptions.md R314). -/
def State.indexPulse (s : State) : Bool :=
  s.statusTypeI && s.imagePresent &&
    decide ((s.now - s.startClock) % s.cfg.clocksPerRev < s.cfg.indexPulseClocks)

/-- The logical value of a Status read (R222). -/
def State.statusLogical (s : State) : Byte :=
  s.statusRegister ||| maskIf s.indexPulse (s.cfg.mask .index)

/-- `BUSY` and `DRQ` set, as a command that stages a transfer ends (R234). -/
def stagedStatus (p : Params) (status : Byte) : Byte := status ||| p.mask .busy ||| p.mask .drq

/-- `BUSY` and `DRQ` cleared, every other bit kept (R283). -/
def endedStatus (p : Params) (status : Byte) : Byte :=
  clearBits (clearBits status (p.mask .busy)) (p.mask .drq)

end Sys2Proof.Machine
end

