-- ==== Sys2Proof/Machine/BitStream.lean ====
section
/-! DEFINITION. The bit-stream reader U0 (41_bitstream.md). -/

namespace Sys2Proof.Machine

/-- `step`: physical bits per logical bit (R111). -/
def BitReader.stride (r : BitReader) : Nat := if r.skip then 2 else 1

/-- `offset()` (R111). -/
def BitReader.offset (r : BitReader) : Nat := r.bitOffset / r.stride

/-- `size()` (R111). -/
def BitReader.size (r : BitReader) : Nat := r.totalBits / r.stride

/-- `remaining()` (R111). -/
def BitReader.remaining (r : BitReader) : Nat := (r.totalBits - r.bitOffset) / r.stride

/-- The current byte, a cache of `buf` (10_state.md R23, 41_bitstream.md R115). -/
def BitReader.curByte (r : BitReader) : Option Byte := r.buf[r.bitOffset / 8]?

/-- `NewBitStream(buf, totalBits, order, skip)` (R110). -/
def newBitReader (buf : List Byte) (totalBits : Nat) (order : BitOrder) (skip : Bool) : BitReader :=
  { buf := buf, totalBits := totalBits, bitOffset := 0, skip := skip, order := order }

/-- The masks of R112: one sample, or two in skip mode. -/
def BitReader.mask (r : BitReader) : Byte :=
  match r.order with
  | .lsb => if r.skip then 0x03#8 else 0x01#8
  | .msb => if r.skip then 0xC0#8 else 0x80#8

/-- The logical bit at the cursor, out of the current byte (R112, R113). -/
def BitReader.extract (r : BitReader) (byte : Byte) : Bool :=
  let index := r.bitOffset % 8
  match r.order with
  | .lsb => (byte >>> index) &&& r.mask != 0x00#8
  | .msb => (byte <<< index) &&& r.mask != 0x00#8

/-- No logical bit is left (R112). -/
def BitReader.atEnd (r : BitReader) : Bool := decide (r.totalBits < r.bitOffset + r.stride)

/-- `next()` (R112): the bit, or none for `EOF` with the cursor unchanged. The outer none is a reader whose
bits are not all inside its buffer, which `NewBitStream` does not make. -/
def BitReader.next? (r : BitReader) : Option (Option Bool × BitReader) :=
  if r.atEnd then some (none, r)
  else
    match r.curByte with
    | some byte => some (some (r.extract byte), { r with bitOffset := r.bitOffset + r.stride })
    | none => none

/-- `seek(o)` (R114). -/
def BitReader.seek (r : BitReader) (o : Nat) : Bool × BitReader :=
  if r.totalBits < o * r.stride then (false, { r with bitOffset := r.totalBits })
  else (true, { r with bitOffset := o * r.stride })

/-- The bits of `next()` repeated, up to `fuel` of them, until `EOF` (43_fm_mfm_decoder.md R140). -/
def BitReader.drain : Nat → BitReader → Option (List Bool × BitReader)
  | 0, r => some ([], r)
  | fuel + 1, r =>
    match r.next? with
    | some (some b, r') =>
      match BitReader.drain fuel r' with
      | some (bs, r'') => some (b :: bs, r'')
      | none => none
    | some (none, r') => some ([], r')
    | none => none

/-- Go on with the reader of a handle. -/
def withReader (handle : Nat) (s : State) (f : BitReader → Out) : Out :=
  orRefuse .noSuchReader s.readers[handle]? f

/-- The state with the reader of a handle replaced. -/
def State.putReader (s : State) (handle : Nat) (r : BitReader) : State :=
  { s with readers := s.readers.set handle r }

/-- `NewBitStream` (R110): the new reader stands after the ones created before it. -/
def execNewBitStream (buf : List Byte) (totalBits : Nat) (order : BitOrder) (skip : Bool) (s : State) : Out :=
  if totalBits ≤ 8 * buf.length then
    .next (reply (.reader s.readers.length)
      { s with readers := s.readers ++ [newBitReader buf totalBits order skip] })
  else .refused .bitStreamTooLong

/-- `next()` (R112). -/
def execBitNext (handle : Nat) (s : State) : Out :=
  withReader handle s fun r =>
    orRefuse .outOfBuffer r.next? fun a =>
      .next (reply (.bit a.1) (s.putReader handle a.2))

/-- `seek(o)` (R114). -/
def execBitSeek (handle : Nat) (o : Nat) (s : State) : Out :=
  withReader handle s fun r =>
    .next (reply (.truth (r.seek o).1) (s.putReader handle (r.seek o).2))

/-- `offset()`, `size()`, `remaining()` (R111). -/
def execBitPositions (handle : Nat) (s : State) : Out :=
  withReader handle s fun r => .next (reply (.positions r.offset r.size r.remaining) s)

end Sys2Proof.Machine
end

