-- ==== Sys2Proof/Machine/Sync.lean ====
section
/-! DEFINITION. The synchronization byte detector U4 (42_sync_detector.md): pure functions of the decoder's
registers. -/

namespace Sys2Proof.Machine

/-- `SyncTest(FM, ...)` (R126): the six FM mark cells of 30_encoding.md R76. -/
def syncTestFm (reg : Word16) (filled : Nat) (_hunting : Bool) (_cell : Nat) : Option (Byte × Byte) :=
  if filled < 16 then none
  else if reg = 0xF56A#16 then some (0xC7#8, 0xF8#8)
  else if reg = 0xF56B#16 then some (0xC7#8, 0xF9#8)
  else if reg = 0xF56E#16 then some (0xC7#8, 0xFA#8)
  else if reg = 0xF56F#16 then some (0xC7#8, 0xFB#8)
  else if reg = 0xF57E#16 then some (0xC7#8, 0xFE#8)
  else if reg = 0xF77A#16 then some (0xD7#8, 0xFC#8)
  else none

/-- `SyncTest(MFM, ...)` (R128), with the phase condition on 0x5224 (R129). -/
def syncTestMfm (reg : Word16) (filled : Nat) (hunting : Bool) (cell : Nat) : Option (Byte × Byte) :=
  if filled < 16 then none
  else if reg &&& 0x7FFF#16 = 0x4489#16 then some (0x0A#8, 0xA1#8)
  else if reg &&& 0x7FFF#16 = 0x5224#16 ∧ (hunting = true ∨ cell % 2 = 0) then some (0x14#8, 0xC2#8)
  else none

/-- `SyncTest(fmt, ...)` (R125). -/
def syncTest (d : Density) (reg : Word16) (filled : Nat) (hunting : Bool) (cell : Nat) :
    Option (Byte × Byte) :=
  match d with
  | .fm => syncTestFm reg filled hunting cell
  | .mfm => syncTestMfm reg filled hunting cell

/-- `LostClock(FM, reg, cell)` (R132). -/
def lostClockFm (reg : Word16) (cell : Nat) : Bool := decide (cell % 2 = 1) && !reg.getLsbD 0

/-- `LostClock(MFM, reg, cell)` (R133): the four legal triples are 010, 001, 100, 101. -/
def lostClockMfm (reg : Word16) (cell : Nat) : Bool :=
  decide (cell % 2 = 0) && !([0b010#3, 0b001#3, 0b100#3, 0b101#3].contains (reg.extractLsb' 0 3))

/-- `LostClock(fmt, reg, cell)` (R125). -/
def lostClock (d : Density) (reg : Word16) (cell : Nat) : Bool :=
  match d with
  | .fm => lostClockFm reg cell
  | .mfm => lostClockMfm reg cell

/-- `SyncTest(FM, ...)` as an operation (R126). -/
def execSyncTestFm (reg : Word16) (filled : Nat) (hunting : Bool) (cell : Nat) (s : State) : Out :=
  .next (reply (.sync (syncTestFm reg filled hunting cell)) s)

/-- `SyncTest(MFM, ...)` as an operation (R128). -/
def execSyncTestMfm (reg : Word16) (filled : Nat) (hunting : Bool) (cell : Nat) (s : State) : Out :=
  .next (reply (.sync (syncTestMfm reg filled hunting cell)) s)

/-- `LostClock(FM, ...)` as an operation (R132). -/
def execLostClockFm (reg : Word16) (cell : Nat) (s : State) : Out :=
  .next (reply (.truth (lostClockFm reg cell)) s)

/-- `LostClock(MFM, ...)` as an operation (R133). -/
def execLostClockMfm (reg : Word16) (cell : Nat) (s : State) : Out :=
  .next (reply (.truth (lostClockMfm reg cell)) s)

end Sys2Proof.Machine
end

