-- ==== Sys2Proof/Machine/Decoder.lean ====
section
/-! DEFINITION. The FM/MFM bit-stream decoder U2 (43_fm_mfm_decoder.md). -/

namespace Sys2Proof.Machine

/-- The working state of one decode (10_state.md R24, 43_fm_mfm_decoder.md R141); `filled` is the spec's
`have`. It never survives the operation (R10). -/
structure DecoderState where
  reg : Word16
  filled : Nat
  cell : Nat
  cur : Option Fragment
  frags : List Fragment
  pos : Nat
deriving DecidableEq, Repr

/-- The start of a decode (R141, 10_state.md R32). -/
def DecoderState.start : DecoderState :=
  { reg := 0#16, filled := 0, cell := 0, cur := none, frags := [], pos := 0 }

/-- `s[x .. x+15]` as a cell, bit 15 the raw bit `x` (R149). -/
def cellAt (raw : List Bool) (x : Nat) : Word16 := cellOfBits ((raw.drop x).take 16)

/-- Whole bytes popped off the end of a fragment until it ends at or before `start`; none when it is
emptied. `fuel` is its number of bytes. (R148) -/
def popBytes (start : Nat) : Nat → Fragment → Option Fragment
  | 0, _ => none
  | fuel + 1, f =>
    let g := { f with byteData := f.byteData.dropLast, bitOffsetEnd := f.bitOffsetEnd - 16 }
    if g.byteData = [] then none
    else if start < g.bitOffsetEnd then popBytes start fuel g
    else some g

/-- The trimming loop of R148 on the list with its last fragment first. -/
def trimReversed (start : Nat) : List Fragment → List Fragment
  | [] => []
  | f :: rest =>
    if f.bitOffsetEnd ≤ start then f :: rest
    else
      match popBytes start f.byteData.length f with
      | some g => g :: rest
      | none => trimReversed start rest

/-- Trimming: whole bytes are dropped from the end of the list until every fragment ends at or before
the new sync point (R148). -/
def trim (start : Nat) (frags : List Fragment) : List Fragment :=
  (trimReversed start frags.reverse).reverse

/-- `RecoverFragment` (R149): the 16-bit groups counted backwards from the new sync point to the end of
the last fragment, as one fragment with `clock = -1`. -/
def recover (raw : List Bool) (start : Nat) (frags : List Fragment) : List Fragment :=
  match frags.getLast? with
  | none => frags
  | some lastFrag =>
    let n := (start - lastFrag.bitOffsetEnd) / 16
    if n = 0 then frags
    else
      let r0 := start - 16 * n
      frags ++ [{ bitOffsetStart := r0
                  bitOffsetEnd := start
                  clock := -1
                  byteData := (List.range n).map fun k => dataOf (cellAt raw (r0 + 16 * k)) }]

/-- The open fragment appended to the closed ones (R145, R146, R150). -/
def closeOpen (st : DecoderState) : DecoderState :=
  match st.cur with
  | some f => { st with frags := st.frags ++ [f], cur := none }
  | none => st

/-- The first part of a bit time: the bit is shifted in (R143). -/
def shiftIn (st : DecoderState) (b : Bool) : DecoderState :=
  { st with
    reg := (st.reg <<< 1) ||| (BitVec.ofBool b).setWidth 16
    filled := min (st.filled + 1) 16
    pos := st.pos + 1 }

/-- The second part, while a fragment is open: lost clock, else byte assembly (R143 to R145). -/
def assemble (d : Density) (st : DecoderState) : DecoderState :=
  match st.cur with
  | none => st
  | some f =>
    let cell := st.cell + 1
    if lostClock d st.reg cell then closeOpen { st with cell := cell }
    else if cell = 16 then
      { st with
        cur := some { f with byteData := f.byteData ++ [dataOf st.reg], bitOffsetEnd := st.pos }
        cell := 0 }
    else { st with cell := cell }

/-- What a sync report does: close, trim, recover, open (R146, R148, R149, R147). -/
def onSync (raw : List Bool) (m : Byte × Byte) (st : DecoderState) : DecoderState :=
  let start := st.pos - 16
  let frags := recover raw start (trim start (closeOpen st).frags)
  { st with
    frags := frags
    cur := some { bitOffsetStart := start
                  bitOffsetEnd := st.pos
                  clock := (m.1.toNat : Int)
                  byteData := [m.2] }
    cell := 0 }

/-- One bit time: shift, assemble, sync test, in this order (R143). `raw` is the whole stream, for the
random access of R149. -/
def decodeBit (d : Density) (raw : List Bool) (st : DecoderState) (b : Bool) : DecoderState :=
  let st := assemble d (shiftIn st b)
  match syncTest d st.reg st.filled st.cur.isNone st.cell with
  | some m => onSync raw m st
  | none => st

/-- `Decode(fmt, s)` (R140 to R150). -/
def decodeBits (d : Density) (raw : List Bool) : List Fragment :=
  (closeOpen (raw.foldl (decodeBit d raw) DecoderState.start)).frags

/-- `Decode(fmt, s)` as an operation. From a reader it takes the bits `next()` delivers until `EOF`, which
leaves the reader there (R140). -/
def execDecode (fmt : TrackFormat) (src : RawSource) (s : State) : Out :=
  withDensity fmt fun d =>
    match src with
    | .bits raw => .next (reply (.fragments (decodeBits d raw)) s)
    | .reader handle =>
      withReader handle s fun r =>
        orRefuse .outOfBuffer (r.drain r.remaining) fun a =>
          .next (reply (.fragments (decodeBits d a.1)) (s.putReader handle a.2))

end Sys2Proof.Machine
end

