-- ==== Sys2Proof/WellFormed.lean ====
section
/-! DEFINITION. Which operands an operation admits: the preconditions the spec states on operands alone
(93_implementation_defined.md, section 1.2). A command, a port access, a CRU write and a token admit
every operand their fields can hold (30_encoding.md R67, R78). -/

namespace Sys2Proof

/-- A list is ascending (46_track_buffer.md R204): equal neighbours are allowed, the spec says "strictly
ascending" where it means that (R152; notes/assumptions/20.md). -/
def ascending : List Nat → Bool
  | [] => true
  | [_] => true
  | a :: b :: rest => decide (a ≤ b) && ascending (b :: rest)

/-- 44_fm_mfm_encoder.md R169 (a) and (d), one fragment: it has a byte, its end offset agrees with its
length, its clock is -1 or a byte value. -/
def fragmentOk (f : Fragment) : Bool :=
  decide (0 < f.byteData.length) &&
    decide (f.bitOffsetEnd = f.bitOffsetStart + 16 * f.byteData.length) &&
    decide (-1 ≤ f.clock) && decide (f.clock ≤ 255)

/-- R169 (c) with (a) and (d) for every fragment: none starts before `from_`, and none before the end of
the one before it. -/
def fragmentsFrom (from_ : Nat) : List Fragment → Bool
  | [] => true
  | f :: rest => fragmentOk f && decide (from_ ≤ f.bitOffsetStart) && fragmentsFrom f.bitOffsetEnd rest

/-- The preconditions of `Encode` on its fragment list (R169 (a) to (d); (b) holds of every natural). -/
def encodable (frags : List Fragment) : Bool := fragmentsFrom 0 frags

/-- A lookup operand: the wildcard -1 or a byte value (R178, R210). -/
def lookupOk (x : Int) : Bool := decide (-1 ≤ x) && decide (x ≤ 255)

/-- `1 <= k <= NUM_DRIVES` (R334). -/
def driveOk (k : Nat) : Bool := decide (1 ≤ k) && decide (k ≤ Config.numDrives)

/-- The operands of an operation meet the spec's preconditions on operands. -/
def Instr.wellFormed : Instr → Bool
  | .restore _ _ _ => true
  | .seek _ _ _ => true
  | .step _ _ _ _ => true
  | .stepin _ _ _ _ => true
  | .stepout _ _ _ _ => true
  | .rdsec _ _ _ _ _ => true
  | .wrsec _ _ _ _ _ => true
  | .rdaddr _ => true
  | .forceint _ => true
  | .rdtrk _ => true
  | .wrtrk _ => true
  | .rsta => true
  | .rtrk => true
  | .rsec => true
  | .rdat => true
  | .wcmd _ => true
  | .wtrk _ => true
  | .wsec _ => true
  | .wdat _ => true
  | .cru0 _ => true
  | .cru1 _ => true
  | .cru2 _ => true
  | .cru3 _ => true
  | .cru4 _ => true
  | .cru5 _ => true
  | .cru6 _ => true
  | .cru7 _ => true
  | .lit00to7F _ => true
  | .lit80toBF _ => true
  | .litC0toDF _ => true
  | .litE0toEF _ => true
  | .litF0toF3 _ => true
  | .litF4 => true
  | .tokF5 => true
  | .tokF6 => true
  | .tokCrc => true
  | .tokDam _ => true
  | .tokIxam => true
  | .tokFd => true
  | .tokIdam => true
  | .litFF => true
  | .crcInit _ => true
  | .crcUpdateBit _ => true
  | .crcUpdateByte _ => true
  | .crcOver _ _ => true
  | .crcAppend _ _ => true
  | .verifyId t _ => driveOk t.drive
  | .verifyData t _ => driveOk t.drive
  | .dataModified t _ => driveOk t.drive
  | .newBitStream buf totalBits _ _ => decide (totalBits ≤ 8 * buf.length)
  | .bitNext _ => true
  | .bitSeek _ _ => true
  | .bitPositions _ => true
  | .syncTestFm _ filled _ cell => decide (filled ≤ 16) && decide (cell ≤ 15)
  | .syncTestMfm _ filled _ cell => decide (filled ≤ 16) && decide (cell ≤ 15)
  | .lostClockFm _ cell => decide (1 ≤ cell) && decide (cell ≤ 16)
  | .lostClockMfm _ cell => decide (1 ≤ cell) && decide (cell ≤ 16)
  | .decode fmt _ => decide (fmt ≠ .unknown)
  | .encode fmt frags => decide (fmt ≠ .unknown) && encodable frags
  | .sectorSize t _ => driveOk t.drive
  | .sectorMatches t _ c h n => driveOk t.drive && lookupOk c && lookupOk h && lookupOk n
  | .sectorRead t _ => driveOk t.drive
  | .sectorValidId t _ => driveOk t.drive
  | .sectorValidData t _ => driveOk t.drive
  | .sectorWrite t _ _ _ => driveOk t.drive
  | .trackWrite t fmt _ => driveOk t.drive && decide (fmt ≠ .unknown)
  | .trackRawWrite t _ clock _ => driveOk t.drive && ascending clock
  | .trackLocateSectors t => driveOk t.drive
  | .trackGetSector t c h n => driveOk t.drive && lookupOk c && lookupOk h && lookupOk n
  | .reset => true

end Sys2Proof
end

