-- ==== Sys2Proof/Machine/Encoder.lean ====
section
/-! DEFINITION. The FM/MFM bit-stream encoder U3 (44_fm_mfm_encoder.md). -/

namespace Sys2Proof.Machine

/-- The working state of one encode (10_state.md R26). It never survives the operation (R10). -/
structure EncoderState where
  out : List Bool
  prevEnd : Option Nat
deriving DecidableEq, Repr

/-- The start of an encode (R160, 10_state.md R32). -/
def EncoderState.start : EncoderState := { out := [], prevEnd := none }

/-- The filler bit at raw offset `p` before a fragment that starts at `start`: the lead is aligned to the
fragment (R162), a gap to the end of the fragment before it (R163). -/
def fillerBit (prevEnd : Option Nat) (start p : Nat) : Bool :=
  match prevEnd with
  | none => decide ((start - p) % 2 = 0)
  | some e => decide ((p - e) % 2 = 0)

/-- `FillGap(start)` (R162, R163). -/
def fillGap (st : EncoderState) (start : Nat) : List Bool :=
  st.out ++ (List.range (start - st.out.length)).map fun k =>
    fillerBit st.prevEnd start (st.out.length + k)

/-- The explicit clock byte of a fragment, none for `clock = -1` (R164, R165). -/
def explicitClock (f : Fragment) : Option Byte :=
  if f.clock = -1 then none else some (BitVec.ofInt 8 f.clock)

/-- `EmitByte(FM, f, i)` with its clock byte (R164). -/
def emitFm (out : List Bool) (clock : Option Byte) (d : Byte) : List Bool :=
  out ++ cellBits (interleave (clock.getD 0xFF#8) d)

/-- `MfmClock(prev, cur)` (R166). -/
def mfmClock (prev cur : Bool) : Bool := !prev && !cur

/-- `prevBit()` (R166). -/
def prevBit (out : List Bool) : Bool := out.getLastD false

/-- `EmitByte(MFM, f, i)` with its clock byte, if the fragment gives one (R165). -/
def emitMfm (out : List Bool) (clock : Option Byte) (d : Byte) : List Bool :=
  [7, 6, 5, 4, 3, 2, 1, 0].foldl
    (fun acc k =>
      let dbit := d.getLsbD k
      let cbit := match clock with
        | some c => c.getLsbD k
        | none => mfmClock (prevBit acc) dbit
      acc ++ [cbit, dbit])
    out

/-- `EmitByte(fmt, f, i)` (R164, R165). -/
def emitByte (d : Density) (out : List Bool) (clock : Option Byte) (b : Byte) : List Bool :=
  match d with
  | .fm => emitFm out clock b
  | .mfm => emitMfm out clock b

/-- The bytes of a fragment: only the first may carry the fragment's clock (R164, R165, R167). -/
def emitFragment (d : Density) (out : List Bool) (f : Fragment) : List Bool :=
  match f.byteData with
  | [] => out
  | b :: rest => rest.foldl (fun acc x => emitByte d acc none x) (emitByte d out (explicitClock f) b)

/-- One turn of the loop of R160. -/
def encodeFragment (d : Density) (st : EncoderState) (f : Fragment) : EncoderState :=
  let out := emitFragment d (fillGap st f.bitOffsetStart) f
  { out := out, prevEnd := some out.length }

/-- `Encode(fmt, frags)` (R160). -/
def encodeFragments (d : Density) (frags : List Fragment) : List Bool :=
  (frags.foldl (encodeFragment d) EncoderState.start).out

/-- A byte of raw bits, MSB-first, the missing ones 0 (R168). -/
def packByte (bits : List Bool) : Byte :=
  [7, 6, 5, 4, 3, 2, 1, 0].foldl
    (fun acc k => if bits.getD (7 - k) false then acc ||| BitVec.twoPow 8 k else acc) 0#8

/-- The raw bits of a stream packed MSB-first, the last byte padded with 0 bits (R168). -/
def packBits (bits : List Bool) : List Byte :=
  (List.range ((bits.length + 7) / 8)).map fun k => packByte ((bits.drop (8 * k)).take 8)

/-- `Encode(fmt, frags)` as an operation, refused outside its preconditions (R169). -/
def execEncode (fmt : TrackFormat) (frags : List Fragment) (s : State) : Out :=
  withDensity fmt fun d =>
    if encodable frags then .next (reply (.raw (encodeFragments d frags)) s)
    else .refused .badFragments

end Sys2Proof.Machine
end

