-- ==== Sys2Proof/Machine/Crc.lean ====
section
/-! DEFINITION. The CRC unit U1 (40_crc16.md): the register step, the table, presets, generator, verifier. An
operation that computes a CRC runs the unit's one register over its bytes and leaves it at the value it
computed (10_state.md R22, 40_crc16.md R91, R97; notes/assumptions/12.md). -/

namespace Sys2Proof.Machine

/-- `CrcUpdateBit(b)` as a function of the register (R93). -/
def crcUpdateBit (crc : Word16) (b : Bool) : Word16 :=
  let fb := crc.getLsbD 15 ^^ b
  let shifted := crc <<< 1
  if fb then shifted ^^^ Config.crcPoly else shifted

/-- `CrcUpdateByte(d)`: bits 7 down to 0 (R94). -/
def crcUpdateByte (crc : Word16) (d : Byte) : Word16 :=
  [7, 6, 5, 4, 3, 2, 1, 0].foldl (fun c i => crcUpdateBit c (d.getLsbD i)) crc

/-- `CrcOver(init, bytes)` (R97). -/
def crcOver (preset : Word16) (bytes : List Byte) : Word16 := bytes.foldl crcUpdateByte preset

/-- The two CRC bytes as they are stored, high byte first (20_memory.md R48). -/
def crcBytes (c : Word16) : List Byte := [c.extractLsb' 8 8, c.extractLsb' 0 8]

/-- `CrcAppend(init, bytes)` (R100). -/
def crcAppend (preset : Word16) (bytes : List Byte) : List Byte :=
  bytes ++ crcBytes (crcOver preset bytes)

/-- Rows 0 to 15 of `CRC_TABLE` as R96 prints them. -/
def crcTableLow : List Nat :=
  [0x0000, 0x1021, 0x2042, 0x3063, 0x4084, 0x50A5, 0x60C6, 0x70E7] ++
  [0x8108, 0x9129, 0xA14A, 0xB16B, 0xC18C, 0xD1AD, 0xE1CE, 0xF1EF] ++
  [0x1231, 0x0210, 0x3273, 0x2252, 0x52B5, 0x4294, 0x72F7, 0x62D6] ++
  [0x9339, 0x8318, 0xB37B, 0xA35A, 0xD3BD, 0xC39C, 0xF3FF, 0xE3DE] ++
  [0x2462, 0x3443, 0x0420, 0x1401, 0x64E6, 0x74C7, 0x44A4, 0x5485] ++
  [0xA56A, 0xB54B, 0x8528, 0x9509, 0xE5EE, 0xF5CF, 0xC5AC, 0xD58D] ++
  [0x3653, 0x2672, 0x1611, 0x0630, 0x76D7, 0x66F6, 0x5695, 0x46B4] ++
  [0xB75B, 0xA77A, 0x9719, 0x8738, 0xF7DF, 0xE7FE, 0xD79D, 0xC7BC] ++
  [0x48C4, 0x58E5, 0x6886, 0x78A7, 0x0840, 0x1861, 0x2802, 0x3823] ++
  [0xC9CC, 0xD9ED, 0xE98E, 0xF9AF, 0x8948, 0x9969, 0xA90A, 0xB92B] ++
  [0x5AF5, 0x4AD4, 0x7AB7, 0x6A96, 0x1A71, 0x0A50, 0x3A33, 0x2A12] ++
  [0xDBFD, 0xCBDC, 0xFBBF, 0xEB9E, 0x9B79, 0x8B58, 0xBB3B, 0xAB1A] ++
  [0x6CA6, 0x7C87, 0x4CE4, 0x5CC5, 0x2C22, 0x3C03, 0x0C60, 0x1C41] ++
  [0xEDAE, 0xFD8F, 0xCDEC, 0xDDCD, 0xAD2A, 0xBD0B, 0x8D68, 0x9D49] ++
  [0x7E97, 0x6EB6, 0x5ED5, 0x4EF4, 0x3E13, 0x2E32, 0x1E51, 0x0E70] ++
  [0xFF9F, 0xEFBE, 0xDFDD, 0xCFFC, 0xBF1B, 0xAF3A, 0x9F59, 0x8F78]

/-- Rows 16 to 31 of `CRC_TABLE` as R96 prints them. -/
def crcTableHigh : List Nat :=
  [0x9188, 0x81A9, 0xB1CA, 0xA1EB, 0xD10C, 0xC12D, 0xF14E, 0xE16F] ++
  [0x1080, 0x00A1, 0x30C2, 0x20E3, 0x5004, 0x4025, 0x7046, 0x6067] ++
  [0x83B9, 0x9398, 0xA3FB, 0xB3DA, 0xC33D, 0xD31C, 0xE37F, 0xF35E] ++
  [0x02B1, 0x1290, 0x22F3, 0x32D2, 0x4235, 0x5214, 0x6277, 0x7256] ++
  [0xB5EA, 0xA5CB, 0x95A8, 0x8589, 0xF56E, 0xE54F, 0xD52C, 0xC50D] ++
  [0x34E2, 0x24C3, 0x14A0, 0x0481, 0x7466, 0x6447, 0x5424, 0x4405] ++
  [0xA7DB, 0xB7FA, 0x8799, 0x97B8, 0xE75F, 0xF77E, 0xC71D, 0xD73C] ++
  [0x26D3, 0x36F2, 0x0691, 0x16B0, 0x6657, 0x7676, 0x4615, 0x5634] ++
  [0xD94C, 0xC96D, 0xF90E, 0xE92F, 0x99C8, 0x89E9, 0xB98A, 0xA9AB] ++
  [0x5844, 0x4865, 0x7806, 0x6827, 0x18C0, 0x08E1, 0x3882, 0x28A3] ++
  [0xCB7D, 0xDB5C, 0xEB3F, 0xFB1E, 0x8BF9, 0x9BD8, 0xABBB, 0xBB9A] ++
  [0x4A75, 0x5A54, 0x6A37, 0x7A16, 0x0AF1, 0x1AD0, 0x2AB3, 0x3A92] ++
  [0xFD2E, 0xED0F, 0xDD6C, 0xCD4D, 0xBDAA, 0xAD8B, 0x9DE8, 0x8DC9] ++
  [0x7C26, 0x6C07, 0x5C64, 0x4C45, 0x3CA2, 0x2C83, 0x1CE0, 0x0CC1] ++
  [0xEF1F, 0xFF3E, 0xCF5D, 0xDF7C, 0xAF9B, 0xBFBA, 0x8FD9, 0x9FF8] ++
  [0x6E17, 0x7E36, 0x4E55, 0x5E74, 0x2E93, 0x3EB2, 0x0ED1, 0x1EF0]

/-- `CRC_TABLE[i]` (R96). -/
def crcTable (i : Byte) : Word16 := BitVec.ofNat 16 ((crcTableLow ++ crcTableHigh).getD i.toNat 0)

/-- The byte step in its table-driven form (R95). -/
def crcUpdateByteTable (crc : Word16) (d : Byte) : Word16 :=
  (crc <<< 8) ^^^ crcTable (crc.extractLsb' 8 8 ^^^ d)

/-- `CrcPreset(format)` (R98). -/
def crcPreset (p : Params) : Density → Word16
  | .fm => p.crcInitFm
  | .mfm => p.crcInitMfm

/-- `FieldCrcID(t, sec)` (R99). -/
def fieldCrcId (p : Params) (d : Density) (data : List Byte) (v : View) : Option Word16 :=
  (memRead data v.idOff 5).map (crcOver (crcPreset p d))

/-- `FieldCrcData(t, sec)` (R99). -/
def fieldCrcData (p : Params) (d : Density) (data : List Byte) (v : View) : Option Word16 :=
  match size? data v with
  | some n => (memRead data v.dataOff (1 + n)).map (crcOver (crcPreset p d))
  | none => none

/-- `VerifyID(t, sec)` (R102), with the CRC it computed. -/
def verifyId (p : Params) (d : Density) (data : List Byte) (v : View) : Option (Bool × Word16) :=
  match fieldCrcId p d data v, memRead data (v.idOff + 5) 2 with
  | some c, some stored => some (decide (stored = crcBytes c), c)
  | _, _ => none

/-- `VerifyData(t, sec)` (R103), with the CRC it computed. -/
def verifyData (p : Params) (d : Density) (data : List Byte) (v : View) : Option (Bool × Word16) :=
  match size? data v, fieldCrcData p d data v with
  | some n, some c =>
    match memRead data (v.dataOff + n + 1) 2 with
    | some stored => some (decide (stored = crcBytes c), c)
    | none => none
  | _, _ => none

/-- `DataModified(t, sec)` (R104): the data field's CRC recomputed and stored, `dirty` set; with the CRC
it computed. -/
def dataModified (p : Params) (d : Density) (t : Track) (v : View) : Option (Track × Word16) :=
  match size? t.data v, fieldCrcData p d t.data v with
  | some n, some c =>
    match memWrite t.data (v.dataOff + n + 1) (crcBytes c) with
    | some data => some ({ t with data := data, dirty := true }, c)
    | none => none
  | _, _ => none

/-- Answer a CRC check of a view with its truth value. -/
def checkView (r : TrackRef) (v : View) (s : State)
    (check : Params → Density → List Byte → View → Option (Bool × Word16)) : Out :=
  withView r v s fun t =>
    withDensity t.format fun d =>
      orRefuse .outOfBuffer (check s.cfg d t.data v) fun a =>
        .next (reply (.truth a.1) (leaveCrc a.2 s))

/-- `CrcInit(v)` (R92). -/
def execCrcInit (v : Word16) (s : State) : Out := .next (reply .nothing (leaveCrc v s))

/-- A step of the register (R93, R94: no exceptions). It writes the register (10_state.md R22) and runs before
`CrcInit` too; the register is then as unspecified as before, and still may not be read
(notes/assumptions/11.md). -/
def crcStep (f : Word16 → Word16) (s : State) : Out := .next (reply .nothing { s with crc := f s.crc })

/-- `CrcUpdateBit(b)` (R93). -/
def execCrcUpdateBit (b : Bool) (s : State) : Out := crcStep (fun c => crcUpdateBit c b) s

/-- `CrcUpdateByte(d)` (R94). -/
def execCrcUpdateByte (d : Byte) (s : State) : Out := crcStep (fun c => crcUpdateByte c d) s

/-- `CrcValue()` (R91): the register handed to the caller, and nothing else. It is the operation that reads the
register (10_state.md R22), and reading it before `CrcInit` is refused (93_implementation_defined.md F11;
70_reset_and_hazards.md R340, U8). The opcode table has no row for it, so it comes as an event of its own
(notes/assumptions/39.md). -/
def crcValue (s : State) : Out :=
  if s.crcReady then .next (reply (.word s.crc) s) else .refused .crcNotInitialised

/-- `CrcOver(init, bytes)` (R97). -/
def execCrcOver (preset : Word16) (bytes : List Byte) (s : State) : Out :=
  .next (reply (.word (crcOver preset bytes)) (leaveCrc (crcOver preset bytes) s))

/-- `CrcAppend(init, bytes)` (R100). -/
def execCrcAppend (preset : Word16) (bytes : List Byte) (s : State) : Out :=
  .next (reply (.bytes (crcAppend preset bytes)) (leaveCrc (crcOver preset bytes) s))

/-- `VerifyID(t, sec)` (R102). -/
def execVerifyId (t : TrackRef) (sec : View) (s : State) : Out := checkView t sec s verifyId

/-- `VerifyData(t, sec)` (R103). -/
def execVerifyData (t : TrackRef) (sec : View) (s : State) : Out := checkView t sec s verifyData

/-- `DataModified(t, sec)` (R104). -/
def execDataModified (t : TrackRef) (sec : View) (s : State) : Out :=
  withView t sec s fun tr =>
    withDensity tr.format fun d =>
      orRefuse .outOfBuffer (dataModified s.cfg d tr sec) fun a =>
        .next (reply .nothing (leaveCrc a.2 (s.putTrack t a.1)))

end Sys2Proof.Machine
end

