-- ==== Sys2Proof/Machine/Sector.lean ====
section
/-! DEFINITION. The sector header/data framer U5 (45_sector_framer.md). -/

namespace Sys2Proof.Machine

/-- One field of `Matches`: -1 is the wildcard, else the integers are compared (R178). -/
def fieldMatches (x : Int) (field : Option Byte) : Bool :=
  x == -1 ||
    match field with
    | some b => x == (b.toNat : Int)
    | none => false

/-- `Matches(sec, c, h, s)` (R178). -/
def sectorMatches (data : List Byte) (c h n : Int) (v : View) : Bool :=
  fieldMatches c (cylinder? data v) && fieldMatches h (head? data v) && fieldMatches n (sectorId? data v)

/-- `Read(sec)`: the data bytes, without the mark and the CRC (R179). -/
def sectorRead (data : List Byte) (v : View) : Option (List Byte) :=
  match size? data v with
  | some n => memRead data (v.dataOff + 1) n
  | none => none

/-- The image of a `Write`: the mark, up to `n` bytes of the buffer, 0xFF for the ones that are missing
(R182). -/
def sectorImage (n : Nat) (mark : Byte) (buf : List Byte) : List Byte :=
  mark :: (buf.take n ++ List.replicate (n - buf.length) 0xFF#8)

/-- `Write(sec, mark, buf)` (R182): the track after it, and the CRC computed where a byte changed. -/
def sectorWrite (p : Params) (d : Density) (t : Track) (v : View) (mark : Byte) (buf : List Byte) :
    Option (Track × Option Word16) :=
  match size? t.data v with
  | none => none
  | some n =>
    let image := sectorImage n mark buf
    match memRead t.data v.dataOff (1 + n) with
    | none => none
    | some old =>
      if image = old then some (t, none)
      else
        match memWrite t.data v.dataOff image with
        | none => none
        | some data =>
          match dataModified p d { t with data := data } v with
          | some (t', c) => some (t', some c)
          | none => none

/-- `FrameID(format, C, H, S, N)` (R187). -/
def frameId (p : Params) (d : Density) (c h n size : Byte) : List Byte :=
  crcAppend (crcPreset p d) [0xFE#8, c, h, n, size]

/-- `FrameData(format, mark, bytes)` (R187). -/
def frameData (p : Params) (d : Density) (mark : Byte) (bytes : List Byte) : List Byte :=
  crcAppend (crcPreset p d) (mark :: bytes)

/-- A sector `Write` on a track of the state: by the direct operation, and by the commit of a Write
Sector (49_controller_type2_type3.md R285). -/
def writeSectorAt (r : TrackRef) (v : View) (mark : Byte) (buf : List Byte) (s : State) : Out :=
  withView r v s fun t =>
    withDensity t.format fun d =>
      orRefuse .outOfBuffer (sectorWrite s.cfg d t v mark buf) fun a =>
        .next (leaveCrc? a.2 (s.putTrack r a.1))

/-- `Size(sec)` (R177). -/
def execSectorSize (t : TrackRef) (sec : View) (s : State) : Out :=
  withView t sec s fun tr =>
    orRefuse .outOfBuffer (size? tr.data sec) fun n => .next (reply (.number n) s)

/-- `Matches(sec, c, h, s)` (R178). -/
def execSectorMatches (t : TrackRef) (sec : View) (c h n : Int) (s : State) : Out :=
  withView t sec s fun tr => .next (reply (.truth (sectorMatches tr.data c h n sec)) s)

/-- `Read(sec)` (R179). -/
def execSectorRead (t : TrackRef) (sec : View) (s : State) : Out :=
  withView t sec s fun tr =>
    orRefuse .outOfBuffer (sectorRead tr.data sec) fun l => .next (reply (.bytes l) s)

/-- `ValidID(sec)` (R180). -/
def execSectorValidId (t : TrackRef) (sec : View) (s : State) : Out := checkView t sec s verifyId

/-- `ValidData(sec)` (R181). -/
def execSectorValidData (t : TrackRef) (sec : View) (s : State) : Out := checkView t sec s verifyData

/-- `Write(sec, mark, buf)` (R182). -/
def execSectorWrite (t : TrackRef) (sec : View) (mark : Byte) (buf : List Byte) (s : State) : Out :=
  writeSectorAt t sec mark buf (reply .nothing s)

end Sys2Proof.Machine
end

