-- ==== Sys2Proof/Machine/TrackBuffer.lean ====
section
/-! DEFINITION. The track data buffer and offset scanner U6 (46_track_buffer.md): the token walk, `RawWrite`,
`LocateSectors`, `GetSector`. -/

namespace Sys2Proof.Machine

/-! ### The offset scanner -/

/-- `ID_DATA_MAX_FM` or `ID_DATA_MAX_MFM`, in bytes (R205, 90_conflicts.md C1). -/
def idDataMax (p : Params) : Density → Nat
  | .fm => p.idDataMaxFm
  | .mfm => p.idDataMaxMfm

/-- `Admit(pend, p, T)`: the distance test (R206) and the bounds test (R208). -/
def admits (limit : Nat) (data : List Byte) (pend at_ : Nat) : Bool :=
  match data[pend + 4]? with
  | none => false
  | some n =>
    decide (7 ≤ at_ - pend) && decide (at_ - pend ≤ limit) && decide (pend + 7 ≤ data.length) &&
      decide (at_ + 1 + sizeOfCode n + 2 ≤ data.length)

/-- The scanner between two clock entries: the sectors found, and the pending ID (R205). -/
structure Scan where
  found : List View
  pend : Option Nat
deriving DecidableEq, Repr

/-- One clock entry (R205, R207). -/
def scanEntry (limit : Nat) (data : List Byte) (sc : Scan) (o : Nat) : Scan :=
  if o % 8 ≠ 0 then sc
  else
    let at_ := o / 8
    match data[at_]? with
    | none => sc
    | some m =>
      if m = 0xFE#8 then { sc with pend := some at_ }
      else if 0xF8#8 ≤ m ∧ m ≤ 0xFB#8 then
        match sc.pend with
        | none => sc
        | some pend =>
          if admits limit data pend at_ then
            { found := sc.found ++ [{ idOff := pend, dataOff := at_ }], pend := none }
          else { sc with pend := none }
      else sc

/-- `LocateSectors` as a function of format, clock list and data (R205). -/
def locateSectors (p : Params) (fmt : TrackFormat) (clock : List Nat) (data : List Byte) : List View :=
  match fmt.density? with
  | none => []
  | some d => (clock.foldl (scanEntry (idDataMax p d) data) { found := [], pend := none }).found

/-- The track with its sector list rebuilt (R205). -/
def relocate (p : Params) (t : Track) : Track :=
  { t with sector := locateSectors p t.format t.clock t.data }

/-- `GetSector(t, c, h, s)` (R210). -/
def getSector (t : Track) (c h n : Int) : Option View := t.sector.find? (sectorMatches t.data c h n)

/-! ### The token walk -/

/-- A walk with its running CRC, the register of the CRC unit (R198). -/
abbrev WalkRun := Walk × Word16

/-- The start of a walk (R198). -/
def walkStart (p : Params) (d : Density) : WalkRun :=
  ({ density := d, data := [], clock := [] }, crcPreset p d)

/-- A literal byte (R199). -/
def tokenLiteral (b : Byte) (w : WalkRun) : WalkRun :=
  ({ w.1 with data := w.1.data ++ [b] }, crcUpdateByte w.2 b)

/-- The CRC-insert token 0xF7 (R200). -/
def tokenCrc (w : WalkRun) : WalkRun :=
  ({ w.1 with data := w.1.data ++ crcBytes w.2 }, (crcBytes w.2).foldl crcUpdateByte w.2)

/-- An address-mark token (R201). -/
def tokenMark (p : Params) (b : Byte) (w : WalkRun) : WalkRun :=
  ({ w.1 with clock := w.1.clock ++ [8 * w.1.data.length], data := w.1.data ++ [b] },
    crcUpdateByte (crcPreset p w.1.density) b)

/-- 0xF5 and 0xF6: a literal in FM, a sync byte in MFM (R202). -/
def tokenSync (b sync : Byte) (w : WalkRun) : WalkRun :=
  match w.1.density with
  | .fm => tokenLiteral b w
  | .mfm => tokenLiteral sync w

/-- One byte of a Write Track stream (R198). -/
def tokenStep (p : Params) (w : WalkRun) (b : Byte) : WalkRun :=
  if b = 0xF7#8 then tokenCrc w
  else if 0xF8#8 ≤ b ∧ b ≤ 0xFE#8 then tokenMark p b w
  else if b = 0xF5#8 then tokenSync 0xF5#8 0xA1#8 w
  else if b = 0xF6#8 then tokenSync 0xF6#8 0xC2#8 w
  else tokenLiteral b w

/-- The walk over a whole stream (R198). -/
def walkStream (p : Params) (d : Density) (raw : List Byte) : WalkRun :=
  raw.foldl (tokenStep p) (walkStart p d)

/-- The track at the end of a walk (R203). -/
def walkTrack (p : Params) (w : Walk) : Track :=
  relocate p
    { dirty := true, format := w.density.format, clock := w.clock, data := w.data, sector := [] }

/-- `RawWrite(t, format, clock, data)` (R204). -/
def rawTrack (p : Params) (fmt : TrackFormat) (clock : List Nat) (data : List Byte) : Track :=
  relocate p { dirty := false, format := fmt, clock := clock, data := data, sector := [] }

/-- A track `Write` on a track of the state: by the direct operation, and by the commit of a Write Track
(49_controller_type2_type3.md R286). The walk is one operation and is closed at its end. -/
def writeTrackAt (r : TrackRef) (d : Density) (raw : List Byte) (s : State) : Out :=
  withTrack r s fun _ =>
    let w := walkStream s.cfg d raw
    .next (leaveCrc w.2 { s.putTrack r (walkTrack s.cfg w.1) with walk := none })

/-- The walk a single token acts on: the open one, with the CRC register, or a new FM walk, the format
the controller always writes (R217; notes/assumptions/14.md). -/
def walkNow (s : State) : WalkRun :=
  match s.walk with
  | none => walkStart s.cfg .fm
  | some w => (w, s.crc)

/-- One token as an operation of its own. -/
def onWalk (f : WalkRun → WalkRun) (s : State) : Out :=
  let w := f (walkNow s)
  .next (reply .nothing (leaveCrc w.2 { s with walk := some w.1 }))

/-- Literal 0x00 to 0x7F (R199). -/
def execLit00to7F (x : BitVec 7) (s : State) : Out := onWalk (tokenLiteral (0b0#1 ++ x)) s
/-- Literal 0x80 to 0xBF (R199). -/
def execLit80toBF (x : BitVec 6) (s : State) : Out := onWalk (tokenLiteral (0b10#2 ++ x)) s
/-- Literal 0xC0 to 0xDF (R199). -/
def execLitC0toDF (x : BitVec 5) (s : State) : Out := onWalk (tokenLiteral (0b110#3 ++ x)) s
/-- Literal 0xE0 to 0xEF (R199). -/
def execLitE0toEF (x : BitVec 4) (s : State) : Out := onWalk (tokenLiteral (0b1110#4 ++ x)) s
/-- Literal 0xF0 to 0xF3 (R199). -/
def execLitF0toF3 (x : BitVec 2) (s : State) : Out := onWalk (tokenLiteral (0b111100#6 ++ x)) s
/-- Literal 0xF4 (R199). -/
def execLitF4 (s : State) : Out := onWalk (tokenLiteral 0xF4#8) s
/-- 0xF5 (R202). -/
def execTokF5 (s : State) : Out := onWalk (tokenSync 0xF5#8 0xA1#8) s
/-- 0xF6 (R202). -/
def execTokF6 (s : State) : Out := onWalk (tokenSync 0xF6#8 0xC2#8) s
/-- CRC-insert 0xF7 (R200). -/
def execTokCrc (s : State) : Out := onWalk tokenCrc s
/-- Data address mark 0xF8 to 0xFB (R201). -/
def execTokDam (x : BitVec 2) (s : State) : Out := onWalk (tokenMark s.cfg (0b111110#6 ++ x)) s
/-- Index address mark 0xFC (R201). -/
def execTokIxam (s : State) : Out := onWalk (tokenMark s.cfg 0xFC#8) s
/-- 0xFD, an address-mark token by the source's range (R201, 90_conflicts.md C3). -/
def execTokFd (s : State) : Out := onWalk (tokenMark s.cfg 0xFD#8) s
/-- ID address mark 0xFE (R201). -/
def execTokIdam (s : State) : Out := onWalk (tokenMark s.cfg 0xFE#8) s
/-- 0xFF, a literal (R199, 90_conflicts.md C4). -/
def execLitFF (s : State) : Out := onWalk (tokenLiteral 0xFF#8) s

/-! ### The track operations -/

/-- Track `Write(t, format, rawBytes)` (R198). -/
def execTrackWrite (t : TrackRef) (fmt : TrackFormat) (raw : List Byte) (s : State) : Out :=
  withDensity fmt fun d => writeTrackAt t d raw (reply .nothing s)

/-- `RawWrite(t, format, clock, data)` (R204). The loader does not run between the accesses of one
transfer (20_memory.md R57). -/
def execTrackRawWrite (t : TrackRef) (fmt : TrackFormat) (clock : List Nat) (data : List Byte)
    (s : State) : Out :=
  if !ascending clock then .refused .clockNotAscending
  else if s.cmdInProgress ≠ .none then .refused .loaderDuringTransfer
  else
    withTrack t s fun _ => .next (reply .nothing (s.putTrack t (rawTrack s.cfg fmt clock data)))

/-- `LocateSectors(t)` (R205). -/
def execTrackLocateSectors (t : TrackRef) (s : State) : Out :=
  withTrack t s fun tr => .next (reply .nothing (s.putTrack t (relocate s.cfg tr)))

/-- `GetSector(t, c, h, s)` (R210). -/
def execTrackGetSector (t : TrackRef) (c h n : Int) (s : State) : Out :=
  withTrack t s fun tr => .next (reply (.view (getSector tr c h n)) s)

end Sys2Proof.Machine
end

