-- ==== Sys2Proof/Machine/Controller.lean ====
section
/-! DEFINITION. What every host access of the controller shares (47_controller_interface.md): the revolution
prelude, the common part of a command write, staging, the transfer steps, commit and completion
(49_controller_type2_type3.md R282 to R286, 60_exceptions.md R313). -/

namespace Sys2Proof.Machine

/-! ### The end of a transfer -/

/-- `Complete()` (R283). -/
def complete (s : State) : State :=
  { s with statusRegister := endedStatus s.cfg s.statusRegister, cmdInProgress := .none, xferTarget := none }

/-- `Commit(n)` (R285, R286): the buffer of a Write Sector goes to the captured sector, the first `n`
bytes of a Write Track to the captured track, always in FM. -/
def commit (n : Nat) (s : State) : Out :=
  match s.cmdInProgress, s.xferTarget with
  | .writeSector, some { track := r, sector := some v } => writeSectorAt r v s.dataMark s.dataBuffer s
  | .writeTrack, some { track := r, sector := none } => writeTrackAt r .fm (s.dataBuffer.take n) s
  | _, _ => .refused .noTransferTarget

/-- The transfer in progress is one the revolution timer ends (R313, R315). -/
def Transfer.timed : Transfer → Bool
  | .readTrack => true
  | .writeTrack => true
  | .none => false
  | .readSector => false
  | .writeSector => false
  | .readAddress => false

/-- The data port reads it (R225). -/
def Transfer.isRead : Transfer → Bool
  | .readSector => true
  | .readAddress => true
  | .readTrack => true
  | .none => false
  | .writeSector => false
  | .writeTrack => false

/-- The data port writes it (R229). -/
def Transfer.isWrite : Transfer → Bool
  | .writeSector => true
  | .writeTrack => true
  | .none => false
  | .readSector => false
  | .readAddress => false
  | .readTrack => false

/-- The revolution has elapsed for the transfer in progress (R313). -/
def State.timedOut (s : State) : Bool :=
  s.cmdInProgress.timed && decide (s.cfg.clocksPerRev ≤ s.now - s.startClock)

/-- `CheckRevolution(now)` (R313). -/
def checkRevolution (s : State) : Out :=
  if s.timedOut then
    if s.cmdInProgress = .writeTrack then
      andThen (commit (s.bytesExpected - s.bytesLeft) s) fun s => .next (complete s)
    else .next (complete s)
  else .next s

/-- The prelude of every `RegRead` and `RegWrite` (R221), then the access itself. -/
def access (body : State → Out) (s : State) : Out := andThen (checkRevolution s) body

/-- The bus byte a register read returns (R46, R221). -/
def replyBus (l : Byte) (s : State) : State := reply (.bus (invert l)) s

/-! ### The byte transfer -/

/-- A Data-port read during a read transfer (R282). -/
def transferRead (s : State) : Out :=
  orRefuse .outOfBuffer s.dataBuffer[s.readDataPtr]? fun l =>
    let s' := { s with
      dataRegister := l
      readDataPtr := s.readDataPtr + 1
      bytesLeft := s.bytesLeft - 1 }
    .next (replyBus l (if s'.bytesLeft = 0 then complete s' else s'))

/-- A Data-port write during a write transfer (R284); `v` is the logical value. -/
def transferWrite (v : Byte) (s : State) : Out :=
  let at_ := s.bytesExpected - s.bytesLeft
  if at_ < s.dataBuffer.length then
    let s' := { s with dataBuffer := s.dataBuffer.set at_ v, bytesLeft := s.bytesLeft - 1 }
    if s'.bytesLeft = 0 then
      andThen (commit s'.bytesExpected s') fun s => .next (complete s)
    else .next s'
  else .refused .outOfBuffer

/-! ### The common part of a command write -/

/-- A command written while `DRQ` is set: logged, `DRQ` cleared (R233, 60_exceptions.md R319). -/
def drqAnomaly (s : State) : State :=
  if s.drqSet then
    { s with
      anomalies := s.anomalies + 1
      statusRegister := clearBits s.statusRegister (s.cfg.mask .drq) }
  else s

/-- Every command other than Force Interrupt supersedes what was in progress, without commit, and clears
the status register (R233). -/
def supersede (typeI : Bool) (s : State) : State :=
  { clearConditions s with
    cmdInProgress := .none
    xferTarget := none
    bytesLeft := 0
    startClock := s.now
    statusTypeI := typeI }

/-- `CommandWrite` of a command other than Force Interrupt, up to its own rule (R233). -/
def commandWrite (typeI : Bool) (s : State) : State :=
  supersede typeI (drqAnomaly (reply .nothing s))

/-- A staged transfer: buffer, length, `BUSY` and `DRQ`, state (R234). -/
def stage (kind : Transfer) (buf : List Byte) (s : State) : State :=
  { s with
    dataBuffer := buf
    bytesExpected := buf.length
    bytesLeft := buf.length
    statusRegister := stagedStatus s.cfg s.statusRegister
    cmdInProgress := kind
    xferDrive := s.driveSelect }

/-- The same for a read transfer, which also sets the read pointer (R274, R278, R280). -/
def stageRead (kind : Transfer) (buf : List Byte) (s : State) : State :=
  { stage kind buf s with readDataPtr := 0 }

/-- The same for a write transfer, which captures its target (10_state.md R19). -/
def stageWrite (kind : Transfer) (target : XferTarget) (buf : List Byte) (s : State) : State :=
  { stage kind buf s with xferTarget := some target }

end Sys2Proof.Machine
end

