-- ==== Sys2Proof/Machine/Environment.lean ====
section
/-! DEFINITION. What the environment does between host accesses (70_reset_and_hazards.md R330 to R335;
30_encoding.md R80): `Reset`, `Insert`, `Eject`, and the clock input. -/

namespace Sys2Proof.Machine

/-- `Reset` (R330, R331): the controller state to its reset values, a transfer dropped without commit;
drives, images, tracks, readers, parameters and the anomaly count stay. The CRC register is unspecified again
(10_state.md R32) and an open token walk is dropped (notes/assumptions/11.md, 14.md). -/
def resetController (s : State) : State :=
  { s with
    hardwareBits := 0x00#8
    driveSelect := 0
    headSelect := 0#1
    trackSelect := 0
    trackRegister := 0x00#8
    sectorRegister := 0x00#8
    dataRegister := 0x00#8
    statusRegister := 0x00#8
    statusTypeI := true
    dataMark := 0xFB#8
    dataBuffer := []
    bytesExpected := 0
    bytesLeft := 0
    readDataPtr := 0
    cmdInProgress := .none
    xferTarget := none
    startClock := 0
    stepDir := resetStepDir s.cfg
    crcReady := false
    walk := none }

/-- `Reset` as an operation (R330). -/
def execReset (s : State) : Out := .next (reply .nothing (resetController s))

/-- Every view of the track is in bounds (10_state.md R30 (b)). -/
def viewInBounds (data : List Byte) (v : View) : Bool :=
  match size? data v with
  | some n => decide (v.idOff + 7 ≤ data.length) && decide (v.dataOff + 1 + n + 2 ≤ data.length)
  | none => false

/-- The invariants of 10_state.md R30 (a), (b) and the ascending clock list of R28, one track. -/
def trackOk (p : Params) (t : Track) : Bool :=
  ascending t.clock && decide (t.sector = locateSectors p t.format t.clock t.data) &&
    t.sector.all (viewInBounds t.data)

/-- What an image must satisfy when it is inserted (R335): a track for every cylinder and head, and the
invariants of R30 on each. -/
def imageOk (p : Params) (img : DiskImage) : Bool :=
  decide (img.tracks.length = img.cylinders * img.heads) && img.tracks.all (trackOk p)

/-- The captured target of a write transfer lies in the image of drive `k` (R334), whichever drive it was
captured from. -/
def targetInDrive (k : Nat) (s : State) : Bool :=
  match s.drives.get k, s.xferTarget with
  | some h, some x => s.drives.get x.track.drive == some h
  | _, _ => false

/-- A transfer is in progress on drive `k` (R334): for a write transfer, its target lies in the drive's
image; for a read transfer, it was staged from that drive. -/
def driveInUse (k : Nat) (s : State) : Bool :=
  match s.cmdInProgress with
  | .none => false
  | .writeSector => targetInDrive k s
  | .writeTrack => targetInDrive k s
  | .readSector => s.xferDrive == k
  | .readAddress => s.xferDrive == k
  | .readTrack => s.xferDrive == k

/-- The reference of the image an `Insert` names, with the images the block then has. A new image must
satisfy R335; a known one does "automatically" (R335). -/
def bringImage (img : ImageOperand) (s : State) (f : Nat → List DiskImage → Out) : Out :=
  match img with
  | .new i => if imageOk s.cfg i then f s.images.length (s.images ++ [i]) else .refused .badImage
  | .known h => if h < s.images.length then f h s.images else .refused .noSuchImage

/-- `Insert(k, img)` (R334, R335): drive `k` holds a reference to the image (10_state.md R20). -/
def insertImage (k : Nat) (img : ImageOperand) (s : State) : Out :=
  if !driveOk k then .refused .noSuchDrive
  else if driveInUse k s then .refused .driveInUse
  else bringImage img s fun h images =>
    .next (reply .nothing { s with drives := s.drives.set k (some h), images := images })

/-- `Eject(k)` (R334). -/
def ejectImage (k : Nat) (s : State) : Out :=
  if !driveOk k then .refused .noSuchDrive
  else if driveInUse k s then .refused .driveInUse
  else .next (reply .nothing { s with drives := s.drives.set k none })

/-- `AT t`: the clock value of the accesses that follow; it never decreases (30_encoding.md R80,
47_controller_interface.md R236). -/
def setClock (t : Nat) (s : State) : Out :=
  if t < s.now then .refused .clockDecreases else .next (reply .nothing { s with now := t })

end Sys2Proof.Machine
end

