-- ==== Sys2Proof/Decode.lean ====
section
/-! DEFINITION. From what the bus carries to an operation (30_encoding.md R61 to R69, R78), and back. Decoding
a command byte or a token is total; decoding a bus access rejects by name what does not reach the block
(20_memory.md R44, 47_controller_interface.md R231, R236). -/

namespace Sys2Proof

/-- Why an access is not an operation of the block. -/
inductive Reject where
  /-- No port of this direction answers at the address (R44, R236). -/
  | notAPort
  /-- The CRU address is none of the eight bits (R231). -/
  | notACruBit
  /-- A CRU read: no part of this block (R231). -/
  | cruRead
deriving DecidableEq, Repr

/-- The command a byte selects by its top nibble (30_encoding.md R62). -/
def decodeOp (c : Byte) : Cmd :=
  match (c.extractLsb' 4 4).toNat with
  | 0x0 => .restore
  | 0x1 => .seek
  | 0x2 => .step
  | 0x3 => .step
  | 0x4 => .stepIn
  | 0x5 => .stepIn
  | 0x6 => .stepOut
  | 0x7 => .stepOut
  | 0x8 => .readSector
  | 0x9 => .readSector
  | 0xA => .writeSector
  | 0xB => .writeSector
  | 0xC => .readAddress
  | 0xD => .forceInterrupt
  | 0xE => .readTrack
  | _ => .writeTrack

/-- The `match` and `mask` columns of the command map (R62). -/
def commandRow : Cmd → Byte × Byte
  | .restore => (0x00#8, 0xF0#8)
  | .seek => (0x10#8, 0xF0#8)
  | .step => (0x20#8, 0xE0#8)
  | .stepIn => (0x40#8, 0xE0#8)
  | .stepOut => (0x60#8, 0xE0#8)
  | .readSector => (0x80#8, 0xE0#8)
  | .writeSector => (0xA0#8, 0xE0#8)
  | .readAddress => (0xC0#8, 0xF0#8)
  | .forceInterrupt => (0xD0#8, 0xF0#8)
  | .readTrack => (0xE0#8, 0xF0#8)
  | .writeTrack => (0xF0#8, 0xF0#8)

/-- The command byte as an operation, its flag bits pulled out (R61 to R66). -/
def decodeCommand (cb : Byte) : Instr :=
  match decodeOp cb with
  | .restore => .restore cb[3] cb[2] (cb.extractLsb' 0 2)
  | .seek => .seek cb[3] cb[2] (cb.extractLsb' 0 2)
  | .step => .step cb[4] cb[3] cb[2] (cb.extractLsb' 0 2)
  | .stepIn => .stepin cb[4] cb[3] cb[2] (cb.extractLsb' 0 2)
  | .stepOut => .stepout cb[4] cb[3] cb[2] (cb.extractLsb' 0 2)
  | .readSector => .rdsec cb[4] cb[3] cb[2] cb[1] cb[0]
  | .writeSector => .wrsec cb[4] cb[3] cb[2] cb[1] cb[0]
  | .readAddress => .rdaddr (cb.extractLsb' 0 4)
  | .forceInterrupt => .forceint (cb.extractLsb' 0 4)
  | .readTrack => .rdtrk (cb.extractLsb' 0 4)
  | .writeTrack => .wrtrk (cb.extractLsb' 0 4)

/-- A byte of a Write Track stream as an operation (R78; the rows of the opcode table split the literal
range by their masks). -/
def decodeToken (b : Byte) : Instr :=
  if b &&& 0x80#8 = 0x00#8 then .lit00to7F (b.extractLsb' 0 7)
  else if b &&& 0xC0#8 = 0x80#8 then .lit80toBF (b.extractLsb' 0 6)
  else if b &&& 0xE0#8 = 0xC0#8 then .litC0toDF (b.extractLsb' 0 5)
  else if b &&& 0xF0#8 = 0xE0#8 then .litE0toEF (b.extractLsb' 0 4)
  else if b &&& 0xFC#8 = 0xF0#8 then .litF0toF3 (b.extractLsb' 0 2)
  else if b = 0xF4#8 then .litF4
  else if b = 0xF5#8 then .tokF5
  else if b = 0xF6#8 then .tokF6
  else if b = 0xF7#8 then .tokCrc
  else if b &&& 0xFC#8 = 0xF8#8 then .tokDam (b.extractLsb' 0 2)
  else if b = 0xFC#8 then .tokIxam
  else if b = 0xFD#8 then .tokFd
  else if b = 0xFE#8 then .tokIdam
  else .litFF

/-- A port answers at an address (R68). -/
def portHit (port addr : Word16) : Bool := portKey addr == portKey port

/-- A memory-mapped read (R44, R68, R222 to R225). The port addresses are parameters, and no rule says that
they differ: where two read ports share an address, the first of status, track, sector, data answers (DESIGN
CHOICE, notes/assumptions/42.md). -/
def decodeRead (m : PortMap) (addr : Word16) : Except Reject Instr :=
  if portHit m.statusR addr then .ok .rsta
  else if portHit m.trackR addr then .ok .rtrk
  else if portHit m.sectorR addr then .ok .rsec
  else if portHit m.dataR addr then .ok .rdat
  else .error .notAPort

/-- A memory-mapped write with its bus byte (R44, R68, R226 to R229). Where two write ports share an address,
the first of command, track, sector, data answers (DESIGN CHOICE, notes/assumptions/42.md). -/
def decodeWrite (m : PortMap) (addr : Word16) (bus : Byte) : Except Reject Instr :=
  if portHit m.commandW addr then .ok (.wcmd bus)
  else if portHit m.trackW addr then .ok (.wtrk bus)
  else if portHit m.sectorW addr then .ok (.wsec bus)
  else if portHit m.dataW addr then .ok (.wdat bus)
  else .error .notAPort

/-- A CRU bit write: the bit number is the distance from `CRU_BASE` (R45, R69, R231). Where the eight bits run
past 0xFFFF they go on at 0x0000 (DESIGN CHOICE, notes/assumptions/42.md). -/
def decodeCru (m : PortMap) (addr : Word16) (v : Bool) : Except Reject Instr :=
  match (addr - m.cruBase).toNat with
  | 0 => .ok (.cru0 v)
  | 1 => .ok (.cru1 v)
  | 2 => .ok (.cru2 v)
  | 3 => .ok (.cru3 v)
  | 4 => .ok (.cru4 v)
  | 5 => .ok (.cru5 v)
  | 6 => .ok (.cru6 v)
  | 7 => .ok (.cru7 v)
  | _ => .error .notACruBit

/-- What a host access asks of the block. -/
def decode (m : PortMap) : HostAccess → Except Reject Instr
  | .command c => .ok (decodeCommand c)
  | .memRead addr => decodeRead m addr
  | .memWrite addr bus => decodeWrite m addr bus
  | .cruWrite addr v => decodeCru m addr v
  | .cruRead _ => .error .cruRead
  | .token b => .ok (decodeToken b)

/-- A Type I command byte: three bits of `op`, bit 4, `h`, `V`, `r1 r0` (R63). -/
def encodeTypeI (op : BitVec 3) (b4 h v : Bool) (r : BitVec 2) : Byte :=
  op ++ BitVec.ofBool b4 ++ BitVec.ofBool h ++ BitVec.ofBool v ++ r

/-- A Type II command byte (R64). -/
def encodeTypeII (op : BitVec 3) (m sb e ca1 a0 : Bool) : Byte :=
  op ++ BitVec.ofBool m ++ BitVec.ofBool sb ++ BitVec.ofBool e ++ BitVec.ofBool ca1 ++ BitVec.ofBool a0

/-- The bus access of an operation, at the addresses of a port map; none for a unit operation, which
has no bit encoding (30_encoding.md, lead text). -/
def encode (m : PortMap) : Instr → Option HostAccess
  | .restore h v r => some (.command (encodeTypeI 0b000#3 false h v r))
  | .seek h v r => some (.command (encodeTypeI 0b000#3 true h v r))
  | .step u h v r => some (.command (encodeTypeI 0b001#3 u h v r))
  | .stepin u h v r => some (.command (encodeTypeI 0b010#3 u h v r))
  | .stepout u h v r => some (.command (encodeTypeI 0b011#3 u h v r))
  | .rdsec m' sb e ca1 a0 => some (.command (encodeTypeII 0b100#3 m' sb e ca1 a0))
  | .wrsec m' sb e ca1 a0 => some (.command (encodeTypeII 0b101#3 m' sb e ca1 a0))
  | .rdaddr x => some (.command (0xC#4 ++ x))
  | .forceint x => some (.command (0xD#4 ++ x))
  | .rdtrk x => some (.command (0xE#4 ++ x))
  | .wrtrk x => some (.command (0xF#4 ++ x))
  | .rsta => some (.memRead m.statusR)
  | .rtrk => some (.memRead m.trackR)
  | .rsec => some (.memRead m.sectorR)
  | .rdat => some (.memRead m.dataR)
  | .wcmd bus => some (.memWrite m.commandW bus)
  | .wtrk bus => some (.memWrite m.trackW bus)
  | .wsec bus => some (.memWrite m.sectorW bus)
  | .wdat bus => some (.memWrite m.dataW bus)
  | .cru0 v => some (.cruWrite m.cruBase v)
  | .cru1 v => some (.cruWrite (m.cruBase + 1#16) v)
  | .cru2 v => some (.cruWrite (m.cruBase + 2#16) v)
  | .cru3 v => some (.cruWrite (m.cruBase + 3#16) v)
  | .cru4 v => some (.cruWrite (m.cruBase + 4#16) v)
  | .cru5 v => some (.cruWrite (m.cruBase + 5#16) v)
  | .cru6 v => some (.cruWrite (m.cruBase + 6#16) v)
  | .cru7 v => some (.cruWrite (m.cruBase + 7#16) v)
  | .lit00to7F x => some (.token (0b0#1 ++ x))
  | .lit80toBF x => some (.token (0b10#2 ++ x))
  | .litC0toDF x => some (.token (0b110#3 ++ x))
  | .litE0toEF x => some (.token (0b1110#4 ++ x))
  | .litF0toF3 x => some (.token (0b111100#6 ++ x))
  | .litF4 => some (.token 0xF4#8)
  | .tokF5 => some (.token 0xF5#8)
  | .tokF6 => some (.token 0xF6#8)
  | .tokCrc => some (.token 0xF7#8)
  | .tokDam x => some (.token (0b111110#6 ++ x))
  | .tokIxam => some (.token 0xFC#8)
  | .tokFd => some (.token 0xFD#8)
  | .tokIdam => some (.token 0xFE#8)
  | .litFF => some (.token 0xFF#8)
  | .crcInit _ => none
  | .crcUpdateBit _ => none
  | .crcUpdateByte _ => none
  | .crcOver _ _ => none
  | .crcAppend _ _ => none
  | .verifyId _ _ => none
  | .verifyData _ _ => none
  | .dataModified _ _ => none
  | .newBitStream _ _ _ _ => none
  | .bitNext _ => none
  | .bitSeek _ _ => none
  | .bitPositions _ => none
  | .syncTestFm _ _ _ _ => none
  | .syncTestMfm _ _ _ _ => none
  | .lostClockFm _ _ => none
  | .lostClockMfm _ _ => none
  | .decode _ _ => none
  | .encode _ _ => none
  | .sectorSize _ _ => none
  | .sectorMatches _ _ _ _ _ => none
  | .sectorRead _ _ => none
  | .sectorValidId _ _ => none
  | .sectorValidData _ _ => none
  | .sectorWrite _ _ _ _ => none
  | .trackWrite _ _ _ => none
  | .trackRawWrite _ _ _ _ => none
  | .trackLocateSectors _ => none
  | .trackGetSector _ _ _ _ => none
  | .reset => none

/-- The bus access a word of the opcode table stands for. Up to eight bits it is a command byte: a
command byte and a token have the same eight bits, and only the port they come through tells them apart
(notes/assumptions/8.md). A longer word is an address in bits 15..0 with the written byte, or the
written CRU bit, above it (notes/assumptions/9.md). -/
def tableAccess (m : PortMap) (nbits w : Nat) : HostAccess :=
  let addr := BitVec.ofNat 16 w
  let data := BitVec.ofNat 8 (w / 65536)
  if nbits ≤ 8 then .command (BitVec.ofNat 8 w)
  else if (decodeRead m addr).isOk then .memRead addr
  else if (decodeWrite m addr data).isOk then .memWrite addr data
  else .cruWrite addr (data.getLsbD 0)

/-- The operation the decoder reads from a word of the opcode table, at the default addresses. -/
def decodeTableWord (nbits w : Nat) : Option Instr :=
  (decode Config.defaultPorts (tableAccess Config.defaultPorts nbits w)).toOption

end Sys2Proof
end

