-- ==== Sys2Proof/Machine/TypeOneFour.lean ====
section
/-! DEFINITION. Controller commands of Type I and Type IV (48_controller_type1_type4.md). -/

namespace Sys2Proof.Machine

/-- What the verification scan found, and the CRC it computed last (R257). -/
structure VerifyScan where
  found : Bool
  bad : Bool
  crc : Option Word16
deriving DecidableEq, Repr

/-- The loop of R257 over the sector list. None is a view outside the buffer. -/
def verifyScan (p : Params) (d : Density) (data : List Byte) (cylinder : Byte) :
    List View → VerifyScan → Option VerifyScan
  | [], acc => some acc
  | v :: rest, acc =>
    match cylinder? data v with
    | none => none
    | some c =>
      if c = cylinder then
        match verifyId p d data v with
        | none => none
        | some (true, w) => some { acc with found := true, crc := some w }
        | some (false, w) => verifyScan p d data cylinder rest { acc with bad := true, crc := some w }
      else verifyScan p d data cylinder rest acc

/-- Before the loop of R257. -/
def VerifyScan.start : VerifyScan := { found := false, bad := false, crc := none }

/-- The scan of the current track: nothing is found where there is no track or no format. -/
def verifyTrack (s : State) : Option VerifyScan :=
  match s.curTrack with
  | none => some VerifyScan.start
  | some t =>
    match t.format.density? with
    | none => some VerifyScan.start
    | some d => verifyScan s.cfg d t.data s.trackRegister t.sector VerifyScan.start

/-- The conditions a scan raises: `SEEK_ERROR`, and `CRC_ERROR` with it (R257). -/
def raiseVerify (r : VerifyScan) (s : State) : State :=
  if r.found then s
  else
    let s := raiseCondition (s.cfg.mask .seekError) s
    if r.bad then raiseCondition (s.cfg.mask .crcError) s else s

/-- Verification (R257), when the command asks for it. -/
def verify (v : Bool) (s : State) : Out :=
  if v then
    orRefuse .outOfBuffer (verifyTrack s) fun r => .next (raiseVerify r (leaveCrc? r.crc s))
  else .next s

/-- Type I status assembly (R258). -/
def assembleStatus (s : State) : State := raiseCondition (typeOneBits s) s

/-- The common shape of Type I: movement, verification, status assembly (R250). -/
def typeOne (v : Bool) (move : State → State) (s : State) : Out :=
  andThen (verify v (move (commandWrite true s))) fun s => .next (assembleStatus s)

/-! ### Head movement -/

/-- Restore (R251). -/
def moveRestore (s : State) : State :=
  { s with trackSelect := 0, trackRegister := 0x00#8, stepDir := .outward }

/-- The distance of a Seek, signed (R252). -/
def seekDistance (s : State) : Int := (s.dataRegister.toNat : Int) - (s.trackRegister.toNat : Int)

/-- Seek (R252). -/
def moveSeek (s : State) : State :=
  let d := seekDistance s
  { s with
    trackSelect := clampTrack s.cfg ((s.trackSelect : Int) + d)
    trackRegister := s.dataRegister
    stepDir := if 0 < d then .inward else if d < 0 then .outward else s.stepDir }

/-- Step, with the track register when `u` is set (R253). -/
def moveStep (u : Bool) (s : State) : State :=
  { s with
    trackSelect := clampTrack s.cfg ((s.trackSelect : Int) + s.stepDir.toInt)
    trackRegister :=
      if u then sat8 ((s.trackRegister.toNat : Int) + s.stepDir.toInt) else s.trackRegister }

/-- Step-In (R254). -/
def moveStepIn (u : Bool) (s : State) : State := moveStep u { s with stepDir := .inward }

/-- Step-Out (R255). -/
def moveStepOut (u : Bool) (s : State) : State := moveStep u { s with stepDir := .outward }

/-! ### The commands, entered after the prelude of a Command-port write -/

/-- Restore (R251). -/
def cmdRestore (v : Bool) (s : State) : Out := typeOne v moveRestore s
/-- Seek (R252). -/
def cmdSeek (v : Bool) (s : State) : Out := typeOne v moveSeek s
/-- Step (R253). -/
def cmdStep (u v : Bool) (s : State) : Out := typeOne v (moveStep u) s
/-- Step-In (R254). -/
def cmdStepIn (u v : Bool) (s : State) : Out := typeOne v (moveStepIn u) s
/-- Step-Out (R255). -/
def cmdStepOut (u v : Bool) (s : State) : Out := typeOne v (moveStepOut u) s

/-- Force Interrupt (R233, R262): the `DRQ` test, then `BUSY` cleared and the transfer dropped. -/
def forceInterrupt (s : State) : State :=
  let s := drqAnomaly (reply .nothing s)
  { s with
    statusRegister := clearBits s.statusRegister (s.cfg.mask .busy)
    cmdInProgress := .none
    xferTarget := none }

/-- Force Interrupt (R262). -/
def cmdForceInterrupt (s : State) : Out := .next (forceInterrupt s)

/-! ### As operations: the command byte written to the Command port (30_encoding.md R81) -/

/-- RESTORE (R251); the head-load flag and the stepping rate are ignored (R63). -/
def execRestore (_h v : Bool) (_r : BitVec 2) (s : State) : Out := access (cmdRestore v) s
/-- SEEK (R252). -/
def execSeek (_h v : Bool) (_r : BitVec 2) (s : State) : Out := access (cmdSeek v) s
/-- STEP (R253). -/
def execStep (u _h v : Bool) (_r : BitVec 2) (s : State) : Out := access (cmdStep u v) s
/-- STEPIN (R254). -/
def execStepin (u _h v : Bool) (_r : BitVec 2) (s : State) : Out := access (cmdStepIn u v) s
/-- STEPOUT (R255). -/
def execStepout (u _h v : Bool) (_r : BitVec 2) (s : State) : Out := access (cmdStepOut u v) s
/-- FORCEINT (R262); the condition bits are ignored (R66). -/
def execForceint (_x : BitVec 4) (s : State) : Out := access cmdForceInterrupt s

end Sys2Proof.Machine
end

