-- ==== Sys2Proof/Machine/TypeTwoThree.lean ====
section
/-! DEFINITION. Controller commands of Type II and Type III (49_controller_type2_type3.md), each entered after
the prelude of a Command-port write. -/

namespace Sys2Proof.Machine

/-- `LookupSector()` (R271) on the current track. -/
def lookupSector (t : Track) (s : State) : Option View :=
  getSector t (s.trackRegister.toNat : Int) (-1) (s.sectorRegister.toNat : Int)

/-- The current track and the sector the registers name, or none (R271, R272). -/
def lookup (s : State) : Option (Track × View) :=
  match s.curTrack with
  | none => none
  | some t =>
    match lookupSector t s with
    | none => none
    | some v => some (t, v)

/-- A command that ends with a condition: the bit is set and nothing is staged (60_exceptions.md R306). -/
def failWith (bit : StatusBit) (s : State) : Out := .next (raiseCondition (s.cfg.mask bit) s)

/-- `CRC_ERROR` where a check failed (R274, R278; 60_exceptions.md R304). -/
def reportCheck (ok : Bool) (s : State) : State :=
  if ok then s else raiseCondition (s.cfg.mask .crcError) s

/-! ### Type II -/

/-- Read Sector (R274). -/
def cmdReadSector (s : State) : Out :=
  let s := commandWrite false s
  match lookup s with
  | none => failWith .notFound s
  | some (t, v) =>
    withDensity t.format fun d =>
      orRefuse .outOfBuffer (dataMark? t.data v) fun mark =>
        orRefuse .outOfBuffer (sectorRead t.data v) fun buf =>
          orRefuse .outOfBuffer (verifyData s.cfg d t.data v) fun check =>
            let s := { s with
              dataMark := mark
              statusRegister := reportMark s.cfg mark s.statusRegister }
            .next (stageRead .readSector buf (reportCheck check.1 (leaveCrc check.2 s)))

/-- The data mark a Write Sector writes (R276): `a1` and `a0` are bits 1 and 0 of the command. -/
def writeMark (p : Params) (a1 a0 : Bool) : Byte :=
  if p.isFD1771 then 0xFB#8 - (BitVec.ofBool a1 ++ BitVec.ofBool a0).setWidth 8
  else if a0 then 0xF8#8 else 0xFB#8

/-- Write Sector (R275 to R277). -/
def cmdWriteSector (a1 a0 : Bool) (s : State) : Out :=
  let s := commandWrite false s
  if s.writeProtected then failWith .writeProtected s
  else
    match lookup s with
    | none => failWith .notFound s
    | some (t, v) =>
      orRefuse .outOfBuffer (size? t.data v) fun n =>
        .next (stageWrite .writeSector { track := s.curRef, sector := some v }
          (List.replicate n 0x00#8) { s with dataMark := writeMark s.cfg a1 a0 })

/-! ### Type III -/

/-- Read Address (R278): the six bytes after the mark of the track's first ID. -/
def cmdReadAddress (s : State) : Out :=
  let s := commandWrite false s
  match s.curTrack with
  | none => failWith .notFound s
  | some t =>
    match t.sector with
    | [] => failWith .notFound s
    | v :: _ =>
      withDensity t.format fun d =>
        orRefuse .outOfBuffer (memRead t.data (v.idOff + 1) 6) fun buf =>
          orRefuse .outOfBuffer (verifyId s.cfg d t.data v) fun check =>
            .next (stageRead .readAddress buf (reportCheck check.1 (leaveCrc check.2 s)))

/-- Read Track (R280). An `Unknown` track gives `NOT_FOUND` whatever its data, as 46_track_buffer.md R197
and decision D45 say; the test of R280's pseudocode is on the length alone, which for an `Unknown` track
with bytes (R204) says otherwise (notes/assumptions/38.md). -/
def cmdReadTrack (s : State) : Out :=
  let s := commandWrite false s
  match s.curTrack with
  | none => failWith .notFound s
  | some t =>
    if t.format = .unknown ∨ t.data.length = 0 then failWith .notFound s
    else .next (stageRead .readTrack t.data s)

/-- Write Track (R281). -/
def cmdWriteTrack (s : State) : Out :=
  let s := commandWrite false s
  if s.writeProtected then failWith .writeProtected s
  else
    match s.curTrack with
    | none => failWith .notFound s
    | some _ =>
      .next (stageWrite .writeTrack { track := s.curRef, sector := none }
        (List.replicate s.cfg.trackBytesFm 0x00#8) s)

/-! ### As operations: the command byte written to the Command port (30_encoding.md R81) -/

/-- RDSEC (R274); every flag is ignored, the multi-sector flag among them (R273). -/
def execRdsec (_m _sb _e _ca1 _a0 : Bool) (s : State) : Out := access cmdReadSector s
/-- WRSEC (R277); bits 1 and 0 select the data mark (R276), the other flags are ignored (R273). -/
def execWrsec (_m _sb _e ca1 a0 : Bool) (s : State) : Out := access (cmdWriteSector ca1 a0) s
/-- RDADDR (R278); the flags are ignored (R65). -/
def execRdaddr (_x : BitVec 4) (s : State) : Out := access cmdReadAddress s
/-- RDTRK (R280); the flags are ignored (R65). -/
def execRdtrk (_x : BitVec 4) (s : State) : Out := access cmdReadTrack s
/-- WRTRK (R281); the flags are ignored (R65). -/
def execWrtrk (_x : BitVec 4) (s : State) : Out := access cmdWriteTrack s

end Sys2Proof.Machine
end

