-- ==== Sys2Proof/Machine/Ports.lean ====
section
/-! DEFINITION. The eight register ports and the CRU latch (47_controller_interface.md R222 to R230). -/

namespace Sys2Proof.Machine

/-- The command a byte selects, run with its flag bits (R226, R232, 30_encoding.md R62). -/
def runCommand (cb : Byte) (s : State) : Out :=
  match decodeOp cb with
  | .restore => cmdRestore (cb.getLsbD 2) s
  | .seek => cmdSeek (cb.getLsbD 2) s
  | .step => cmdStep (cb.getLsbD 4) (cb.getLsbD 2) s
  | .stepIn => cmdStepIn (cb.getLsbD 4) (cb.getLsbD 2) s
  | .stepOut => cmdStepOut (cb.getLsbD 4) (cb.getLsbD 2) s
  | .readSector => cmdReadSector s
  | .writeSector => cmdWriteSector (cb.getLsbD 1) (cb.getLsbD 0) s
  | .readAddress => cmdReadAddress s
  | .forceInterrupt => cmdForceInterrupt s
  | .readTrack => cmdReadTrack s
  | .writeTrack => cmdWriteTrack s

/-! ### Reads -/

/-- `RegRead(STATUS, now)` (R222). -/
def execRsta (s : State) : Out := access (fun s => .next (replyBus s.statusLogical s)) s

/-- `RegRead(TRACK_R, now)` (R223). -/
def execRtrk (s : State) : Out := access (fun s => .next (replyBus s.trackRegister s)) s

/-- `RegRead(SECTOR_R, now)` (R224). -/
def execRsec (s : State) : Out := access (fun s => .next (replyBus s.sectorRegister s)) s

/-- `RegRead(DATA_R, now)` after the prelude (R225). -/
def readData (s : State) : Out :=
  if s.cmdInProgress.isRead then transferRead s else .next (replyBus s.dataRegister s)

/-- `RegRead(DATA_R, now)` (R225). -/
def execRdat (s : State) : Out := access readData s

/-! ### Writes -/

/-- `RegWrite(COMMAND, busByte, now)` (R226). -/
def execWcmd (bus : Byte) (s : State) : Out := access (runCommand (invert bus)) s

/-- `RegWrite(TRACK_W, busByte, now)` (R227). -/
def execWtrk (bus : Byte) (s : State) : Out :=
  access (fun s => .next (reply .nothing { s with trackRegister := invert bus })) s

/-- `RegWrite(SECTOR_W, busByte, now)` (R228). -/
def execWsec (bus : Byte) (s : State) : Out :=
  access (fun s => .next (reply .nothing { s with sectorRegister := invert bus })) s

/-- `RegWrite(DATA_W, busByte, now)` after the prelude, with the logical value (R229). -/
def writeData (v : Byte) (s : State) : Out :=
  let s := reply .nothing { s with dataRegister := v }
  if s.cmdInProgress.isWrite then transferWrite v s else .next s

/-- `RegWrite(DATA_W, busByte, now)` (R229). -/
def execWdat (bus : Byte) (s : State) : Out := access (writeData (invert bus)) s

/-! ### The CRU latch -/

/-- `hardwareBits` with bit `n` at `v` (R230). -/
def latchBit (bits : Byte) (n : Nat) (v : Bool) : Byte :=
  if v then bits ||| BitVec.twoPow 8 n else bits &&& ~~~(BitVec.twoPow 8 n)

/-- The drive the latch selects: the lowest numbered one wins (R230). -/
def driveOf (bits : Byte) : Nat :=
  if bits.getLsbD 4 then 1 else if bits.getLsbD 5 then 2 else if bits.getLsbD 6 then 3 else 0

/-- The head the latch selects (R230). -/
def headOf (bits : Byte) : BitVec 1 := bits.extractLsb' 7 1

/-- `CruWrite(n, v)` (R230). It carries no clock and evaluates no time-out. -/
def cruWrite (n : Nat) (v : Bool) (s : State) : State :=
  let bits := latchBit s.hardwareBits n v
  reply .nothing { s with hardwareBits := bits, driveSelect := driveOf bits, headSelect := headOf bits }

/-- CRU bit 0: latched only (R69). -/
def execCru0 (v : Bool) (s : State) : Out := .next (cruWrite 0 v s)
/-- CRU bit 1, by default motor pulse (`CRU_MOTOR`): latched only (R69). -/
def execCru1 (v : Bool) (s : State) : Out := .next (cruWrite 1 v s)
/-- CRU bit 2, by default transfer-enable (`CRU_XFER_EN`): latched only (R69). -/
def execCru2 (v : Bool) (s : State) : Out := .next (cruWrite 2 v s)
/-- CRU bit 3, by default head-load (`CRU_HEAD_LOAD`): latched, reported by Type I status (R69). -/
def execCru3 (v : Bool) (s : State) : Out := .next (cruWrite 3 v s)
/-- CRU bit 4, drive-select 1 (R69). -/
def execCru4 (v : Bool) (s : State) : Out := .next (cruWrite 4 v s)
/-- CRU bit 5, drive-select 2 (R69). -/
def execCru5 (v : Bool) (s : State) : Out := .next (cruWrite 5 v s)
/-- CRU bit 6, drive-select 3 (R69). -/
def execCru6 (v : Bool) (s : State) : Out := .next (cruWrite 6 v s)
/-- CRU bit 7, head-select (R69). -/
def execCru7 (v : Bool) (s : State) : Out := .next (cruWrite 7 v s)

end Sys2Proof.Machine
end

