-- ==== Sys2Proof/Machine/Dispatch.lean ====
section
/-! DEFINITION. Every operation to its meaning, one arm per row of spec/opcode_table.json. -/

namespace Sys2Proof.Machine

def exec (i : Instr) (s : State) : Host.Outcome State Fault Refusal :=
  match i with
  | .restore h v r => Sys2Proof.Machine.execRestore h v r s
  | .seek h v r => Sys2Proof.Machine.execSeek h v r s
  | .step u h v r => Sys2Proof.Machine.execStep u h v r s
  | .stepin u h v r => Sys2Proof.Machine.execStepin u h v r s
  | .stepout u h v r => Sys2Proof.Machine.execStepout u h v r s
  | .rdsec m sb e ca1 a0 => Sys2Proof.Machine.execRdsec m sb e ca1 a0 s
  | .wrsec m sb e ca1 a0 => Sys2Proof.Machine.execWrsec m sb e ca1 a0 s
  | .rdaddr x => Sys2Proof.Machine.execRdaddr x s
  | .forceint x => Sys2Proof.Machine.execForceint x s
  | .rdtrk x => Sys2Proof.Machine.execRdtrk x s
  | .wrtrk x => Sys2Proof.Machine.execWrtrk x s
  | .rsta => Sys2Proof.Machine.execRsta s
  | .rtrk => Sys2Proof.Machine.execRtrk s
  | .rsec => Sys2Proof.Machine.execRsec s
  | .rdat => Sys2Proof.Machine.execRdat s
  | .wcmd bus => Sys2Proof.Machine.execWcmd bus s
  | .wtrk bus => Sys2Proof.Machine.execWtrk bus s
  | .wsec bus => Sys2Proof.Machine.execWsec bus s
  | .wdat bus => Sys2Proof.Machine.execWdat bus s
  | .cru0 v => Sys2Proof.Machine.execCru0 v s
  | .cru1 v => Sys2Proof.Machine.execCru1 v s
  | .cru2 v => Sys2Proof.Machine.execCru2 v s
  | .cru3 v => Sys2Proof.Machine.execCru3 v s
  | .cru4 v => Sys2Proof.Machine.execCru4 v s
  | .cru5 v => Sys2Proof.Machine.execCru5 v s
  | .cru6 v => Sys2Proof.Machine.execCru6 v s
  | .cru7 v => Sys2Proof.Machine.execCru7 v s
  | .lit00to7F x => Sys2Proof.Machine.execLit00to7F x s
  | .lit80toBF x => Sys2Proof.Machine.execLit80toBF x s
  | .litC0toDF x => Sys2Proof.Machine.execLitC0toDF x s
  | .litE0toEF x => Sys2Proof.Machine.execLitE0toEF x s
  | .litF0toF3 x => Sys2Proof.Machine.execLitF0toF3 x s
  | .litF4 => Sys2Proof.Machine.execLitF4 s
  | .tokF5 => Sys2Proof.Machine.execTokF5 s
  | .tokF6 => Sys2Proof.Machine.execTokF6 s
  | .tokCrc => Sys2Proof.Machine.execTokCrc s
  | .tokDam x => Sys2Proof.Machine.execTokDam x s
  | .tokIxam => Sys2Proof.Machine.execTokIxam s
  | .tokFd => Sys2Proof.Machine.execTokFd s
  | .tokIdam => Sys2Proof.Machine.execTokIdam s
  | .litFF => Sys2Proof.Machine.execLitFF s
  | .crcInit v => Sys2Proof.Machine.execCrcInit v s
  | .crcUpdateBit b => Sys2Proof.Machine.execCrcUpdateBit b s
  | .crcUpdateByte d => Sys2Proof.Machine.execCrcUpdateByte d s
  | .crcOver preset bytes => Sys2Proof.Machine.execCrcOver preset bytes s
  | .crcAppend preset bytes => Sys2Proof.Machine.execCrcAppend preset bytes s
  | .verifyId t sec => Sys2Proof.Machine.execVerifyId t sec s
  | .verifyData t sec => Sys2Proof.Machine.execVerifyData t sec s
  | .dataModified t sec => Sys2Proof.Machine.execDataModified t sec s
  | .newBitStream buf totalBits order skip => Sys2Proof.Machine.execNewBitStream buf totalBits order skip s
  | .bitNext handle => Sys2Proof.Machine.execBitNext handle s
  | .bitSeek handle o => Sys2Proof.Machine.execBitSeek handle o s
  | .bitPositions handle => Sys2Proof.Machine.execBitPositions handle s
  | .syncTestFm reg filled hunting cell => Sys2Proof.Machine.execSyncTestFm reg filled hunting cell s
  | .syncTestMfm reg filled hunting cell => Sys2Proof.Machine.execSyncTestMfm reg filled hunting cell s
  | .lostClockFm reg cell => Sys2Proof.Machine.execLostClockFm reg cell s
  | .lostClockMfm reg cell => Sys2Proof.Machine.execLostClockMfm reg cell s
  | .decode fmt src => Sys2Proof.Machine.execDecode fmt src s
  | .encode fmt frags => Sys2Proof.Machine.execEncode fmt frags s
  | .sectorSize t sec => Sys2Proof.Machine.execSectorSize t sec s
  | .sectorMatches t sec c h n => Sys2Proof.Machine.execSectorMatches t sec c h n s
  | .sectorRead t sec => Sys2Proof.Machine.execSectorRead t sec s
  | .sectorValidId t sec => Sys2Proof.Machine.execSectorValidId t sec s
  | .sectorValidData t sec => Sys2Proof.Machine.execSectorValidData t sec s
  | .sectorWrite t sec mark buf => Sys2Proof.Machine.execSectorWrite t sec mark buf s
  | .trackWrite t fmt raw => Sys2Proof.Machine.execTrackWrite t fmt raw s
  | .trackRawWrite t fmt clock data => Sys2Proof.Machine.execTrackRawWrite t fmt clock data s
  | .trackLocateSectors t => Sys2Proof.Machine.execTrackLocateSectors t s
  | .trackGetSector t c h n => Sys2Proof.Machine.execTrackGetSector t c h n s
  | .reset => Sys2Proof.Machine.execReset s

end Sys2Proof.Machine
end

