-- ==== Sys2Proof/Machine/Events.lean ====
section
/-! DEFINITION. Where the coming operation is fetched, and what each kind of it does
(47_controller_interface.md R220, R231, R236; 20_memory.md R44). -/

namespace Sys2Proof.Machine

/-- The coming operation, taken off the list; none while the block waits (70_reset_and_hazards.md R332). -/
def fetch (s : State) : Option (Event × State) :=
  match s.pending with
  | [] => none
  | e :: rest => some (e, { s with pending := rest })

/-- An access that decodes is the operation it decodes to. A CRU read is refused (R231). Any other access
that does not decode is none to this block: nothing happens (R44, R236). -/
def runAccess (a : HostAccess) (s : State) : Out :=
  match decode s.cfg.ports a with
  | .ok i => exec i s
  | .error .cruRead => .refused .cruRead
  | .error .notAPort => .next s
  | .error .notACruBit => .next s

/-- One coming operation. -/
def runEvent (e : Event) (s : State) : Out :=
  match e with
  | .access a => runAccess a s
  | .call i => exec i s
  | .clockIs t => setClock t s
  | .crcValue => crcValue s
  | .insert k img => insertImage k img s
  | .eject k => ejectImage k s

/-- An operation put before all that are coming. -/
def place (e : Event) (s : State) : State := { s with pending := e :: s.pending }

end Sys2Proof.Machine
end

