-- ==== Sys2Proof/Machine/Step.lean ====
section
/-! DEFINITION. One step: the coming operation of host or environment, whole (20_memory.md R51). -/

namespace Sys2Proof.Machine

/-- One step. With nothing coming the block waits (70_reset_and_hazards.md R332). -/
def step (s : State) : Host.Outcome State Fault Refusal :=
  match fetch s with
  | none => .next s
  | some (e, s') => runEvent e s'

/-- The state with a word of the opcode table as its coming operation (notes/assumptions/2.md, 8.md,
9.md). -/
def State.withFetchWord (s : State) (nbits w : Nat) : State :=
  place (.access (tableAccess s.cfg.ports nbits w)) s

end Sys2Proof.Machine
end

