-- ==== Sys2Proof/Safety.lean ====
section
/-! DEFINITION. What holds of every state a step reaches (`Inv`), and the spec's terms in which the claims
are written: bytes of a track, the fields of a sector, what an accepted command leaves. They are written
from the rules, apart from the definitions of the meanings they are compared with. -/

namespace Sys2Proof.Machine

/-! ### The canonical form of the memory -/

/-- A view lies in its track: the data mark is beyond the ID field (46_track_buffer.md R206), and there
is room for the shortest data field. -/
def viewPlaced (data : List Byte) (v : View) : Bool :=
  decide (v.idOff + 7 ≤ v.dataOff) && decide (v.dataOff + 131 ≤ data.length)

/-- A track: its clock list ascends (10_state.md R28), an unformatted one has no sectors
(46_track_buffer.md R197), every view is placed. -/
def trackWf (t : Track) : Bool :=
  ascending t.clock && (decide (t.format ≠ .unknown) || decide (t.sector = [])) &&
    t.sector.all (viewPlaced t.data)

/-- An image: a track for every cylinder and head, each well formed (10_state.md R27). -/
def imageWf (img : DiskImage) : Bool :=
  decide (img.tracks.length = img.cylinders * img.heads) && img.tracks.all trackWf

/-- The memory of the block, the tracks of the images it has seen, is in its form. `data` is dense: it
has the bytes 0 to `len(data) - 1` and no other (20_memory.md R40, R41), so equal memories are equal
lists (notes/assumptions/15.md). -/
def Memory.wf (images : List DiskImage) : Bool := images.all imageWf

/-- Every drive is empty or refers to an image there is (10_state.md R20). -/
def referencesOk (s : State) : Bool :=
  [s.drives.drive1, s.drives.drive2, s.drives.drive3].all fun x =>
    match x with
    | some h => decide (h < s.images.length)
    | none => true

/-- One byte of a track, none outside its data (20_memory.md R41). -/
def readByte (s : State) (r : TrackRef) (a : Nat) : Option Byte :=
  match s.track? r with
  | some t => t.data[a]?
  | none => none

/-- Two references name one track: the drives refer to one image (10_state.md R20), and cylinder and head
are equal. -/
def sameTrack (s : State) (r r' : TrackRef) : Prop :=
  s.drives.get r'.drive = s.drives.get r.drive ∧ r'.cylinder = r.cylinder ∧ r'.head = r.head

/-- The track a reference names is `t`, through every drive that refers to its image (10_state.md R20). -/
def trackIs (r : TrackRef) (t : Track) (s : State) : Prop := ∀ r', sameTrack s r r' → s.track? r' = some t

/-- No track but the one a reference names differs: none of the image it lies in, none of another image,
inserted or not, and none reached through a drive. Every image keeps its geometry and its write-protect flag
(70_reset_and_hazards.md R335). -/
def sameElsewhere (r : TrackRef) (s s' : State) : Prop :=
  s'.drives = s.drives ∧ s'.images.length = s.images.length ∧
    (∀ (h : Nat) (img img' : DiskImage), s.images[h]? = some img → s'.images[h]? = some img' →
      img'.cylinders = img.cylinders ∧ img'.heads = img.heads ∧ img'.writeProtected = img.writeProtected ∧
        ∀ c k, ¬(s.drives.get r.drive = some h ∧ c = r.cylinder ∧ k = r.head) →
          img'.getTrack c k = img.getTrack c k) ∧
    ∀ r', ¬sameTrack s r r' → s'.track? r' = s.track? r'

/-! ### The invariant -/

/-- Between accesses a transfer has its whole buffer, a byte left, and its read pointer on the next byte
(10_state.md R18). -/
def transferOk (s : State) : Bool :=
  match s.cmdInProgress with
  | .none => true
  | .writeSector | .writeTrack =>
    decide (s.dataBuffer.length = s.bytesExpected) && decide (0 < s.bytesLeft) &&
      decide (s.bytesLeft ≤ s.bytesExpected)
  | .readSector | .readAddress | .readTrack =>
    decide (s.dataBuffer.length = s.bytesExpected) && decide (0 < s.bytesLeft) &&
      decide (s.readDataPtr + s.bytesLeft = s.bytesExpected)

/-- A write transfer has its captured target, of its own kind, on a track that is there; nothing else
has one (10_state.md R19). -/
def targetOk (s : State) : Bool :=
  match s.cmdInProgress, s.xferTarget with
  | .writeSector, some { track := r, sector := some _ } => (s.track? r).isSome
  | .writeTrack, some { track := r, sector := none } => (s.track? r).isSome
  | .writeSector, _ => false
  | .writeTrack, _ => false
  | _, none => true
  | _, some _ => false

/-- A reader's cursor is inside its bits and its bits inside its buffer; in skip mode the cursor is even
unless it is at the end (41_bitstream.md R110, R113, R115). -/
def readerOk (r : BitReader) : Bool :=
  decide (r.bitOffset ≤ r.totalBits) && decide (r.totalBits ≤ 8 * r.buf.length) &&
    (!r.skip || decide (r.bitOffset % 2 = 0) || decide (r.bitOffset = r.totalBits))

/-- A named bit is set in the stored status, at its place in the layout (30_encoding.md R70 to R72). -/
def statusHas (s : State) (b : StatusBit) : Bool := s.statusRegister.getLsbD (s.cfg.layout.position b).val

/-- What every operation of the block keeps. -/
structure Inv (s : State) : Prop where
  /-- The parameters are in their bounds (00_scope.md R5; notes/assumptions/5.md). -/
  params : s.cfg.wf = true
  /-- The memory has its form. -/
  memory : Memory.wf s.images = true
  /-- The drives refer to images there are (R20). -/
  references : referencesOk s = true
  /-- `driveSelect` follows the latch (10_state.md R15, 47_controller_interface.md R230). -/
  drive : s.driveSelect = driveOf s.hardwareBits
  /-- `headSelect` follows the latch (R15, R230). -/
  head : s.headSelect = headOf s.hardwareBits
  /-- The head is on a cylinder there is (R16). -/
  cylinder : s.trackSelect ≤ s.cfg.maxCylinder
  /-- `BUSY` exactly while a transfer is in progress (R12). -/
  busy : statusHas s .busy = true ↔ s.cmdInProgress ≠ .none
  /-- `DRQ` exactly while a transfer is in progress (60_exceptions.md R319). -/
  request : statusHas s .drq = true ↔ s.cmdInProgress ≠ .none
  /-- `NOT_READY` is never set (60_exceptions.md R308). -/
  ready : statusHas s .notReady = false
  /-- `LOST_DATA` is never set (R308); in Type I status its bit may be that of `TRACK0`. -/
  lost : s.statusTypeI = false → statusHas s .lostData = false
  /-- No transfer after a Type I command (48_controller_type1_type4.md R259). -/
  typeOne : s.statusTypeI = true → s.cmdInProgress = .none
  /-- The counters of a transfer (R18). -/
  transfer : transferOk s = true
  /-- The target of a write transfer (R19). -/
  target : targetOk s = true
  /-- The clock is at or after the recorded start (60_exceptions.md R313). -/
  clock : s.startClock ≤ s.now
  /-- Every reader is in bounds (R115). -/
  readers : s.readers.all readerOk = true
  /-- An open walk has its running CRC in the register (46_track_buffer.md R198). -/
  walk : s.walk.isSome = true → s.crcReady = true

/-- Every view of every track of the inserted images has its whole fields inside the buffer (10_state.md R30 (b)). Sector writes
through fields that overlap can break it (20_memory.md R58; notes/assumptions/16.md), so it is no part
of `Inv`. -/
def boundsOk (s : State) : Bool :=
  [1, 2, 3].all fun k =>
    match s.imageIn k with
    | some img => img.tracks.all fun t => t.sector.all (viewInBounds t.data)
    | none => true

/-- The sector a Write Sector will commit to is still in its track's list (49_controller_type2_type3.md
R285). -/
def targetListed (s : State) : Bool :=
  match s.xferTarget with
  | some { track := r, sector := some v } =>
    match s.track? r with
    | some t => decide (v ∈ t.sector)
    | none => false
  | _ => true

/-! ### Terms of the claims -/

/-- `n` bytes from index `a` (20_memory.md R41, inside the buffer). -/
def slice (data : List Byte) (a n : Nat) : List Byte := (data.drop a).take n

/-- `Size(sec) = 128 << (ID[4] & 3)` (45_sector_framer.md R177). -/
def sizeAt (data : List Byte) (v : View) : Nat := 128 * 2 ^ ((data.getD (v.idOff + 4) 0#8).toNat % 4)

/-- A stored pair of CRC bytes is the CRC `c`, high byte first (20_memory.md R48). -/
def storedCrc (data : List Byte) (a : Nat) (c : Word16) : Bool :=
  data[a]? == some (c.extractLsb' 8 8) && data[a + 1]? == some (c.extractLsb' 0 8)

/-- The ID field's CRC is right (40_crc16.md R99, R102). -/
def idGood (p : Params) (d : Density) (data : List Byte) (v : View) : Bool :=
  storedCrc data (v.idOff + 5) (crcOver (crcPreset p d) (slice data v.idOff 5))

/-- The data field's CRC is right (40_crc16.md R99, R103). -/
def dataGood (p : Params) (d : Density) (data : List Byte) (v : View) : Bool :=
  storedCrc data (v.dataOff + sizeAt data v + 1)
    (crcOver (crcPreset p d) (slice data v.dataOff (1 + sizeAt data v)))

/-- The image of a sector `Write`: mark, data, 0xFF for missing data (45_sector_framer.md R182). -/
def writeImage (n : Nat) (mark : Byte) (buf : List Byte) : List Byte :=
  mark :: ((buf ++ List.replicate n 0xFF#8).take n)

/-- The first sector whose ID carries a cylinder and a sector number; the head is not compared
(49_controller_type2_type3.md R271). -/
def sectorNamed (t : Track) (cylinder sector : Byte) : Option View :=
  t.sector.find? fun v => t.data[v.idOff + 1]? == some cylinder && t.data[v.idOff + 3]? == some sector

/-- The bits Type I verification sets (48_controller_type1_type4.md R257): none where some ID has the
cylinder and a right CRC; else `SEEK_ERROR`, with `CRC_ERROR` where some ID has the cylinder. -/
def verifyBits (p : Params) (track : Option Track) (cylinder : Byte) : Byte :=
  let ids : List (Bool × Bool) :=
    match track with
    | none => []
    | some t =>
      match t.format.density? with
      | none => []
      | some d => t.sector.map fun v => (t.data[v.idOff + 1]? == some cylinder, idGood p d t.data v)
  if ids.any (fun x => x.1 && x.2) then 0x00#8
  else if ids.any (fun x => x.1) then p.mask .seekError ||| p.mask .crcError
  else p.mask .seekError

/-- The selected drive holds a write-protected image (49_controller_type2_type3.md R275). -/
def protectedNow (s : State) : Bool :=
  match s.imageIn s.driveSelect with
  | some img => img.writeProtected
  | none => false

/-- What a command write other than Force Interrupt does before the command's own rule
(47_controller_interface.md R233). -/
def accepted (typeI : Bool) (s : State) : State :=
  { s with
    cmdInProgress := .none
    xferTarget := none
    bytesLeft := 0
    startClock := s.now
    statusRegister := 0x00#8
    statusTypeI := typeI
    anomalies := if statusHas s .drq then s.anomalies + 1 else s.anomalies
    result := .nothing }

/-- What a Type I command leaves, the CRC register apart, for the cylinder, the track register and the
direction it ends with (48_controller_type1_type4.md R250, R257, R258). -/
def typeOneEnds (v : Bool) (cylinder : Nat) (register : Byte) (dir : StepDir) (s : State) : State :=
  { accepted true s with
    trackSelect := cylinder
    trackRegister := register
    stepDir := dir
    statusRegister :=
      (if cylinder = 0 then s.cfg.mask .track0 else 0x00#8) |||
        (if protectedNow s then s.cfg.mask .writeProtected else 0x00#8) |||
        (if s.hardwareBits.getLsbD s.cfg.cruHeadLoad.val then s.cfg.mask .headLoaded else 0x00#8) |||
        (if v then
          verifyBits s.cfg (s.track? ⟨s.driveSelect, cylinder, s.headSelect.toNat⟩) register
        else 0x00#8) }

/-- What a command that stages a transfer leaves (47_controller_interface.md R234): `BUSY`, `DRQ`, and the
other bits it reports. -/
def transferStaged (kind : Transfer) (buf : List Byte) (others : Byte) (s : State) : State :=
  { accepted false s with
    dataBuffer := buf
    bytesExpected := buf.length
    bytesLeft := buf.length
    statusRegister := s.cfg.mask .busy ||| s.cfg.mask .drq ||| others
    cmdInProgress := kind
    xferDrive := s.driveSelect }

/-- The end of a transfer (49_controller_type2_type3.md R283): `BUSY` and `DRQ` cleared, every other
status bit kept. -/
def transferEnded (s : State) : State :=
  { s with
    statusRegister := s.statusRegister &&& ~~~(s.cfg.mask .busy ||| s.cfg.mask .drq)
    cmdInProgress := .none
    xferTarget := none }

/-- The logical bit at a reader's cursor (41_bitstream.md R112, R113): bit 0 of a byte first in the LSB
variant, bit 7 first in the MSB variant; in skip mode either of two samples. -/
def BitReader.sample (r : BitReader) : Bool :=
  let byte := r.buf.getD (r.bitOffset / 8) 0#8
  let k := r.bitOffset % 8
  match r.order with
  | .lsb => byte.getLsbD k || (r.skip && byte.getLsbD (k + 1))
  | .msb => byte.getLsbD (7 - k) || (r.skip && decide (k < 7) && byte.getLsbD (6 - k))

/-- The raw window at an offset, as a cell (00_scope.md R7). -/
def window (raw : List Bool) (x : Nat) : Word16 := cellOfBits ((raw.drop x).take 16)

/-- The window at an offset is a mark cell, in a phase in which the detector may accept it (42_sync_detector.md
R126, R128). -/
def markWindow (d : Density) (raw : List Bool) (x : Nat) : Bool :=
  (syncTest d (window raw x) 16 true 0).isSome

/-- A detector that opened a fragment at its first cell has lost its clock again by raw position `pos`: some
window from the fragment's second cell on, ending at `pos` or before it, fails `LostClock` at its place in the
fragment's framing (42_sync_detector.md R132, R133; 43_fm_mfm_decoder.md R143, R145). -/
def clockLostBy (d : Density) (raw : List Bool) (f : Fragment) (pos : Nat) : Bool :=
  (List.range (pos - (f.bitOffsetStart + 16))).any fun k =>
    lostClock d (window raw (f.bitOffsetStart + 1 + k)) (k % 16 + 1)

/-- What `SyncTest` reports for the window at an offset that starts no fragment: asked in the phase of the
fragment opened last, which stays open beyond its end until its clock is lost, and while hunting where none is
open (42_sync_detector.md R128, R129). -/
def reportAt (d : Density) (frags : List Fragment) (raw : List Bool) (x : Nat) : Option (Byte × Byte) :=
  match (frags.filter fun f => decide (f.bitOffsetStart < x)).getLast? with
  | none => syncTest d (window raw x) 16 true 0
  | some f =>
    if clockLostBy d raw f (x + 16) then syncTest d (window raw x) 16 true 0
    else syncTest d (window raw x) 16 false ((x - f.bitOffsetStart) % 16)

/-- A report at this offset would do no harm: it lies in the last bits of the lead, so that its one byte
overlaps the first fragment and is trimmed away (43_fm_mfm_decoder.md R148), and that fragment starts with
0xA1, which is accepted at any phase (42_sync_detector.md R129). -/
def harmlessReport (frags : List Fragment) (x : Nat) : Bool :=
  match frags.head? with
  | none => false
  | some f =>
    decide (x < f.bitOffsetStart) && decide (f.bitOffsetStart < x + 16) && f.byteData.head? == some 0xA1#8

/-- `SyncTest` reports nowhere in a stream but at the first cells of its fragments (44_fm_mfm_encoder.md R170,
condition 3), or where that does no harm: the end of a lead before 0xA1 is the pattern of
42_sync_detector.md R129 as the detector hunts, and R170 allows any lead. -/
def syncOnlyAtStarts (d : Density) (frags : List Fragment) (raw : List Bool) : Bool :=
  (List.range (raw.length - 15)).all fun x =>
    frags.any (fun f => f.bitOffsetStart == x) || harmlessReport frags x || (reportAt d frags raw x).isNone

/-- Two fragments one after the other are as close as the codec's round trip asks (R170, condition 2): in FM
fewer than 16 bits apart, in MFM not apart at all. -/
def closeEnough (d : Density) (f g : Fragment) : Prop :=
  match d with
  | .fm => g.bitOffsetStart < f.bitOffsetEnd + 16
  | .mfm => g.bitOffsetStart = f.bitOffsetEnd

/-- The byte the scanner reads at a clock entry, none where the entry is misaligned or outside the data
(46_track_buffer.md R205, R207). -/
def markAt (data : List Byte) (o : Nat) : Option Byte :=
  if o % 8 = 0 then data[o / 8]? else none

/-- A clock entry the scanner acts on: an ID mark or a data mark (R205, R207). -/
def scannerActs (data : List Byte) (o : Nat) : Bool :=
  match markAt data o with
  | some m => m == 0xFE#8 || (decide (0xF8#8 ≤ m) && decide (m ≤ 0xFB#8))
  | none => false

/-- The recognised marks, as clock identity and first byte (30_encoding.md R76, R77). -/
def marksOf : Density → List (Int × Byte)
  | .fm => [(0xC7, 0xF8#8), (0xC7, 0xF9#8), (0xC7, 0xFA#8), (0xC7, 0xFB#8), (0xC7, 0xFE#8), (0xD7, 0xFC#8)]
  | .mfm => [(0x0A, 0xA1#8), (0x14, 0xC2#8)]

/-- The state after a token that stores bytes in a walk and leaves the running CRC at `c`; an address
mark records its place (46_track_buffer.md R199 to R202). -/
def tokenStored (w : Walk) (stored : List Byte) (isMark : Bool) (c : Word16) (s : State) : State :=
  { s with
    walk := some { w with
      data := w.data ++ stored
      clock := if isMark then w.clock ++ [8 * w.data.length] else w.clock }
    crc := c
    crcReady := true
    result := .nothing }

/-- The tokens of a stream run one after another, each as an operation of its own. -/
def runTokens (raw : List Byte) (s : State) : Out :=
  raw.foldl (fun o b => andThen o (exec (decodeToken b))) (.next s)

end Sys2Proof.Machine
end

