-- ==== Sys2Proof/Certificates/Slice0/Obligations.lean ====
section
/-! DEFINITION. The statements for the provers. A statement about a next state gives the whole of it, so
that what it leaves out of the record is unchanged. Hypotheses speak of the state before and of the
operands alone. `timedOut = false` says that the prelude of a register access does nothing;
`RevolutionTimeOut` says what happens where it does not hold. -/

open Sys2Proof Sys2Proof.Machine

/-! ### Encodings -/

/-- A few words of the spec's encoding tables, written out bit by bit (30_encoding.md R62 to R69, R78).
Rests on the spec's own decisions D24, D25, D35 (92_eei_decisions.md). -/
def Obligations.DecodeSampleWords : Prop :=
  decode Config.defaultPorts (.command 0b00001011#8) = .ok (.restore true false 0b11#2) ∧
  decode Config.defaultPorts (.command 0b00110100#8) = .ok (.step true false true 0b00#2) ∧
  decode Config.defaultPorts (.command 0b10011000#8) = .ok (.rdsec true true false false false) ∧
  decode Config.defaultPorts (.command 0b10100001#8) = .ok (.wrsec false false false false true) ∧
  decode Config.defaultPorts (.command 0b11010101#8) = .ok (.forceint 0b0101#4) ∧
  decode Config.defaultPorts (.memRead 0b0101111111110110#16) = .ok .rdat ∧
  decode Config.defaultPorts (.memWrite 0b0101111111111000#16 0b01110111#8) = .ok (.wcmd 0x77#8) ∧
  decode Config.defaultPorts (.cruWrite 0b0001000100000111#16 true) = .ok (.cru7 true) ∧
  decode Config.defaultPorts (.token 0b11110111#8) = .ok .tokCrc ∧
  decode Config.defaultPorts (.token 0b11111010#8) = .ok (.tokDam 0b10#2)

/-- Encoding an operation that has a bit encoding and decoding it again gives the operation back, every
operand at every value, for every port map whose ports can be told apart (the model's premise,
notes/assumptions/42.md). Rests on the spec's own decisions D24, D25, D35 (92_eei_decisions.md). -/
def Obligations.EncodeDecodeRoundTrip : Prop :=
  ∀ (m : PortMap) (i : Instr), m.wf = true → i.format ≠ .unit →
    ∃ a, encode m i = some a ∧ a.format = i.format ∧ decode m a = .ok i

/-- Every command byte selects exactly one row of the command map (30_encoding.md R62, R67), and no bit of
a command byte or of a token is dropped. Rests on the spec's own decisions D25, D35 (92_eei_decisions.md). -/
def Obligations.CommandMapPartition : Prop :=
  (∀ (c : Byte) (k : Cmd) (row : Byte × Byte),
    (k, row) ∈ ([(.restore, (0x00#8, 0xF0#8)), (.seek, (0x10#8, 0xF0#8)), (.step, (0x20#8, 0xE0#8)),
      (.stepIn, (0x40#8, 0xE0#8)), (.stepOut, (0x60#8, 0xE0#8)), (.readSector, (0x80#8, 0xE0#8)),
      (.writeSector, (0xA0#8, 0xE0#8)), (.readAddress, (0xC0#8, 0xF0#8)),
      (.forceInterrupt, (0xD0#8, 0xF0#8)), (.readTrack, (0xE0#8, 0xF0#8)),
      (.writeTrack, (0xF0#8, 0xF0#8))] : List (Cmd × Byte × Byte)) →
    (c &&& row.2 = row.1 ↔ decodeOp c = k)) ∧
  (∀ (m : PortMap) (c : Byte), encode m (decodeCommand c) = some (.command c)) ∧
  (∀ (m : PortMap) (b : Byte), encode m (decodeToken b) = some (.token b))

/-- A read or a write reaches a port exactly at its address, bit 0 apart (30_encoding.md R68): for ports
that can be told apart (the model's premise, notes/assumptions/42.md), by all four reads and all four
writes. Rests on the spec's own decision D24 (92_eei_decisions.md). -/
def Obligations.PortSelection : Prop :=
  ∀ (m : PortMap) (a : Word16) (bus : Byte), m.wf = true →
    (decode m (.memRead a) = .ok .rsta ↔ a ||| 1#16 = m.statusR ||| 1#16) ∧
    (decode m (.memRead a) = .ok .rtrk ↔ a ||| 1#16 = m.trackR ||| 1#16) ∧
    (decode m (.memRead a) = .ok .rsec ↔ a ||| 1#16 = m.sectorR ||| 1#16) ∧
    (decode m (.memRead a) = .ok .rdat ↔ a ||| 1#16 = m.dataR ||| 1#16) ∧
    (decode m (.memWrite a bus) = .ok (.wcmd bus) ↔ a ||| 1#16 = m.commandW ||| 1#16) ∧
    (decode m (.memWrite a bus) = .ok (.wtrk bus) ↔ a ||| 1#16 = m.trackW ||| 1#16) ∧
    (decode m (.memWrite a bus) = .ok (.wsec bus) ↔ a ||| 1#16 = m.sectorW ||| 1#16) ∧
    (decode m (.memWrite a bus) = .ok (.wdat bus) ↔ a ||| 1#16 = m.dataW ||| 1#16)

/-! ### Steps -/

/-- A step whose coming operation is an access that decodes, or a direct call, is exec of that operation,
with the operation taken off the list and nothing else done (47_controller_interface.md R220). The second
and third clauses are the model's choices: that a direct call is a coming operation of its own
(notes/assumptions/34.md), and that a word of the opcode table placed for the next step is the access
`tableAccess` reads from it (notes/assumptions/2.md, 8.md, 9.md). Rests on the spec's own decision D2
(92_eei_decisions.md). -/
def Obligations.StepRunsDecoded : Prop :=
  (∀ (s : State) (a : HostAccess) (rest : List Event) (i : Instr),
    s.pending = .access a :: rest → decode s.cfg.ports a = .ok i →
    Machine.step s = exec i { s with pending := rest }) ∧
  (∀ (s : State) (i : Instr) (rest : List Event),
    s.pending = .call i :: rest → Machine.step s = exec i { s with pending := rest }) ∧
  (∀ (s : State) (nbits w : Nat) (i : Instr),
    decode s.cfg.ports (tableAccess s.cfg.ports nbits w) = .ok i →
    Machine.step (s.withFetchWord nbits w) = exec i s)

/-- The other steps: waiting, an access that is none to the block, a CRU read (refused), the clock input
(47_controller_interface.md R231, R236; 70_reset_and_hazards.md R332). That the ignored access is a step
of its own is the model's choice (notes/assumptions/23.md). Rests on the spec's own decisions D2, D24, D39
(92_eei_decisions.md). -/
def Obligations.StepWithoutOperation : Prop :=
  (∀ s : State, s.pending = [] → Machine.step s = .next s) ∧
  (∀ (s : State) (a : HostAccess) (rest : List Event), s.pending = .access a :: rest →
    (decode s.cfg.ports a = .error .notAPort ∨ decode s.cfg.ports a = .error .notACruBit) →
    Machine.step s = .next { s with pending := rest }) ∧
  (∀ (s : State) (a : Word16) (rest : List Event), s.pending = .access (.cruRead a) :: rest →
    Machine.step s = .refused .cruRead) ∧
  (∀ (s : State) (t : Nat) (rest : List Event), s.pending = .clockIs t :: rest →
    Machine.step s =
      if t < s.now then .refused .clockDecreases
      else .next { s with pending := rest, now := t, result := .nothing })

/-- Insertion and removal of an image (70_reset_and_hazards.md R334, R335; 10_state.md R20): the drive gets a
reference to the image, one the block has not seen (which must be sound) or a known one, or none; no track,
no other drive and no controller register changes. A drive that does not exist, a drive whose image has the
target of a write transfer, and the drive of a read transfer are refused. The drive of a read transfer is the
field `xferDrive`, and an image is ill formed where it breaks 10_state.md R30: both are the model's reading
(notes/assumptions/19.md); so are the reference as a place in a list and the refusal of a reference that
stands for no image (notes/assumptions/37.md). Rests on the spec's own decision D3 (92_eei_decisions.md). -/
def Obligations.InsertAndEject : Prop :=
  ∀ (s : State) (k : Nat) (rest : List Event),
    let busy : Bool :=
      match s.cmdInProgress with
      | .none => false
      | .writeSector | .writeTrack =>
        (s.drives.get k).isSome && (s.xferTarget.map fun x => s.drives.get x.track.drive) == some (s.drives.get k)
      | .readSector | .readAddress | .readTrack => s.xferDrive == k
    let sound := fun img : DiskImage =>
      decide (img.tracks.length = img.cylinders * img.heads) && img.tracks.all fun t =>
        ascending t.clock && decide (t.sector = locateSectors s.cfg t.format t.clock t.data) &&
          t.sector.all (viewInBounds t.data)
    let drivesWith := fun x : Option Nat =>
      if k = 1 then { s.drives with drive1 := x }
      else if k = 2 then { s.drives with drive2 := x }
      else { s.drives with drive3 := x }
    (∀ img : DiskImage, s.pending = .insert k (.new img) :: rest → Machine.step s =
      if ¬(1 ≤ k ∧ k ≤ 3) then .refused .noSuchDrive
      else if busy then .refused .driveInUse
      else if sound img = false then .refused .badImage
      else .next { s with
        pending := rest, result := .nothing, drives := drivesWith (some s.images.length)
        images := s.images ++ [img] }) ∧
    (∀ h : Nat, s.pending = .insert k (.known h) :: rest → Machine.step s =
      if ¬(1 ≤ k ∧ k ≤ 3) then .refused .noSuchDrive
      else if busy then .refused .driveInUse
      else if s.images.length ≤ h then .refused .noSuchImage
      else .next { s with pending := rest, result := .nothing, drives := drivesWith (some h) }) ∧
    (s.pending = .eject k :: rest → Machine.step s =
      if ¬(1 ≤ k ∧ k ≤ 3) then .refused .noSuchDrive
      else if busy then .refused .driveInUse
      else .next { s with pending := rest, result := .nothing, drives := drivesWith none })

/-! ### The CRC unit -/

/-- `CrcInit`, `CrcUpdateBit` and `CrcUpdateByte` (40_crc16.md R92, R93, R94): the register's new value
and nothing else, from every state (before `CrcInit` too: notes/assumptions/11.md); `CrcValue` (R91) hands it
over, as a coming operation of its own (notes/assumptions/39.md). Rests on the spec's own decision D5 (92_eei_decisions.md). -/
def Obligations.CrcRegisterOperations : Prop :=
  (∀ (s : State) (v : Word16),
    exec (.crcInit v) s = .next { s with crc := v, crcReady := true, result := .nothing }) ∧
  (∀ (s : State) (b : Bool),
    exec (.crcUpdateBit b) s = .next { s with
      crc := if s.crc.getLsbD 15 ^^ b then (s.crc <<< 1) ^^^ 0x1021#16 else s.crc <<< 1
      result := .nothing }) ∧
  (∀ (s : State) (d : Byte),
    exec (.crcUpdateByte d) s = .next { s with
      crc := [7, 6, 5, 4, 3, 2, 1, 0].foldl
        (fun c i => if c.getLsbD 15 ^^ d.getLsbD i then (c <<< 1) ^^^ 0x1021#16 else c <<< 1) s.crc
      result := .nothing }) ∧
  (∀ (s : State) (rest : List Event), s.pending = .crcValue :: rest → s.crcReady = true →
    Machine.step s = .next { s with pending := rest, result := .word s.crc })

/-- The CRC register may not be read before `CrcInit` (10_state.md R32, 93_implementation_defined.md F11;
70_reset_and_hazards.md R340, U8): `CrcValue` is refused, and still is after any steps of the register, which
run but initialise nothing (notes/assumptions/11.md). Rests on the spec's own decision D3 (92_eei_decisions.md). -/
def Obligations.CrcBeforeInitRefused : Prop :=
  ∀ (s : State), s.crcReady = false →
    (∀ rest, s.pending = .crcValue :: rest → Machine.step s = .refused .crcNotInitialised) ∧
    (∀ b, ∃ s' : State, exec (.crcUpdateBit b) s = .next s' ∧
      s'.crcReady = false ∧ Machine.step (place .crcValue s') = .refused .crcNotInitialised) ∧
    (∀ d, ∃ s' : State, exec (.crcUpdateByte d) s = .next s' ∧
      s'.crcReady = false ∧ Machine.step (place .crcValue s') = .refused .crcNotInitialised)

/-- `CrcOver` and `CrcAppend` (40_crc16.md R97, R100): the value that `CrcInit` and one `CrcUpdateByte`
for each byte give, and the bytes with that value after them, high byte first. That they leave the
register at that value is the model's choice (notes/assumptions/12.md). Rests on the spec's own decision
D5 (92_eei_decisions.md). -/
def Obligations.CrcOverAndAppend : Prop :=
  ∀ (s : State) (preset : Word16) (bytes : List Byte),
    ∃ c : Word16,
      bytes.foldl (fun o d => andThen o (exec (.crcUpdateByte d))) (exec (.crcInit preset) s) =
        .next { s with crc := c, crcReady := true, result := .nothing } ∧
      exec (.crcOver preset bytes) s =
        .next { s with crc := c, crcReady := true, result := .word c } ∧
      exec (.crcAppend preset bytes) s =
        .next { s with
          crc := c, crcReady := true,
          result := .bytes (bytes ++ [c.extractLsb' 8 8, c.extractLsb' 0 8]) }

/-- The table-driven byte step equals the bit-serial one (40_crc16.md R95), with the table R96 prints.
Rests on the spec's own decision D5 (92_eei_decisions.md). -/
def Obligations.CrcTableForm : Prop :=
  ∀ (crc : Word16) (d : Byte), crcUpdateByte crc d = (crc <<< 8) ^^^ crcTable ((crc >>> 8).setWidth 8 ^^^ d)

/-- Every entry of the printed table is the register after eight steps on the entry's index (40_crc16.md
R96). Rests on the spec's own decision D5 (92_eei_decisions.md). -/
def Obligations.CrcTableEntries : Prop :=
  ∀ i : Byte,
    crcTable i = (List.range 8).foldl (fun c _ => if c.getLsbD 15 then (c <<< 1) ^^^ 0x1021#16 else c <<< 1)
      ((i.setWidth 16 : Word16) <<< 8) ∧
    crcTable i = crcUpdateByte 0x0000#16 i

/-- The residue of a field with its CRC is zero; testing for zero equals recomputing and comparing; with
the two bytes swapped the ID field of 40_crc16.md R100 leaves 0x2284 (R101). Rests on the spec's own
decision D5 (92_eei_decisions.md). -/
def Obligations.CrcResidue : Prop :=
  (∀ (preset : Word16) (bytes : List Byte), crcOver preset (crcAppend preset bytes) = 0x0000#16) ∧
  (∀ (preset : Word16) (bytes : List Byte) (hi lo : Byte),
    crcOver preset (bytes ++ [hi, lo]) = 0x0000#16 ↔ [hi, lo] = crcBytes (crcOver preset bytes)) ∧
  crcOver 0xFFFF#16 [0xFE#8, 0x00#8, 0x00#8, 0x01#8, 0x01#8, 0xE2#8, 0xC2#8] = 0x2284#16

/-- The CRC arithmetic is linear over GF(2), zero stays zero, and the byte step is a bijection of the
register (40_crc16.md R106). Rests on the spec's own decision D5 (92_eei_decisions.md). -/
def Obligations.CrcLinearity : Prop :=
  (∀ (a b : Word16) (m : List Byte),
    crcOver (a ^^^ b) m = crcOver a m ^^^ crcOver b (List.replicate m.length 0x00#8)) ∧
  (∀ m1 m2 : List Byte, m1.length = m2.length →
    crcOver 0x0000#16 (List.zipWith (· ^^^ ·) m1 m2) = crcOver 0x0000#16 m1 ^^^ crcOver 0x0000#16 m2) ∧
  (∀ n : Nat, crcOver 0x0000#16 (List.replicate n 0x00#8) = 0x0000#16) ∧
  (∀ d : Byte, Function.Bijective fun c => crcUpdateByte c d)

/-- One changed bit anywhere in the covered bytes changes the CRC (40_crc16.md R106). Rests on the spec's
own decision D5 (92_eei_decisions.md). -/
def Obligations.CrcDetectsSingleBit : Prop :=
  ∀ (preset : Word16) (before after : List Byte) (b : Byte) (k : Nat), k < 8 →
    crcOver preset (before ++ (b ^^^ BitVec.twoPow 8 k) :: after) ≠ crcOver preset (before ++ b :: after)

/-- `VerifyID` and `ValidID`, `VerifyData` and `ValidData` (40_crc16.md R102, R103; 45_sector_framer.md
R180, R181): the two stored bytes are compared with the CRC of the covered bytes; nothing changes but the
CRC register the check may run over (notes/assumptions/12.md). Rests on the spec's own decisions D4, D6
(92_eei_decisions.md). -/
def Obligations.FieldChecks : Prop :=
  ∀ (s : State) (r : TrackRef) (v : View) (t : Track) (d : Density),
    s.track? r = some t → v ∈ t.sector → t.format.density? = some d → viewInBounds t.data v = true →
    (∃ c ready,
      exec (.verifyId r v) s = .next { s with
        crc := c, crcReady := ready, result := .truth (idGood s.cfg d t.data v) } ∧
      exec (.sectorValidId r v) s = .next { s with
        crc := c, crcReady := ready, result := .truth (idGood s.cfg d t.data v) }) ∧
    (∃ c ready,
      exec (.verifyData r v) s = .next { s with
        crc := c, crcReady := ready, result := .truth (dataGood s.cfg d t.data v) } ∧
      exec (.sectorValidData r v) s = .next { s with
        crc := c, crcReady := ready, result := .truth (dataGood s.cfg d t.data v) })

/-- `DataModified` (40_crc16.md R104): the two CRC bytes of the data field become the CRC of the field and
the track is dirty; every other byte of it, every other track, the image's geometry and write-protect flag
and every register of the controller stay; the data field verifies after it. Rests on the spec's own decisions D4, D6, D21 (92_eei_decisions.md). -/
def Obligations.DataModifiedStoresCrc : Prop :=
  ∀ (s : State) (r : TrackRef) (v : View) (t : Track) (d : Density),
    s.track? r = some t → v ∈ t.sector → t.format.density? = some d → viewInBounds t.data v = true →
    v.idOff + 7 ≤ v.dataOff →
    ∃ (s' : State) (t' : Track),
      exec (.dataModified r v) s = .next s' ∧
      s' = { s with
        images := (s.putTrack r t').images, crc := s'.crc, crcReady := s'.crcReady, result := .nothing } ∧
      sameElsewhere r s s' ∧ trackIs r t' s' ∧
      t' = { t with data := t'.data, dirty := true } ∧ t'.data.length = t.data.length ∧
      storedCrc t'.data (v.dataOff + sizeAt t.data v + 1)
        (crcOver (crcPreset s.cfg d) (slice t.data v.dataOff (1 + sizeAt t.data v))) = true ∧
      (∀ a, a < v.dataOff + sizeAt t.data v + 1 ∨ v.dataOff + sizeAt t.data v + 3 ≤ a →
        readByte s' r a = readByte s r a) ∧
      dataGood s.cfg d t'.data v = true ∧ idGood s.cfg d t'.data v = idGood s.cfg d t.data v

/-! ### The bit-stream reader -/

/-- `NewBitStream` (41_bitstream.md R110): a reader with the operands and its cursor at 0; more bits than
the buffer holds are refused. That the reader comes last in a list and is named by its place there is the
model's choice (notes/assumptions/24.md). -/
def Obligations.NewBitStreamOperation : Prop :=
  ∀ (s : State) (buf : List Byte) (totalBits : Nat) (order : BitOrder) (skip : Bool),
    (totalBits ≤ 8 * buf.length →
      exec (.newBitStream buf totalBits order skip) s = .next { s with
        readers := s.readers ++ [{
          buf := buf, totalBits := totalBits, bitOffset := 0, skip := skip, order := order }]
        result := .reader s.readers.length }) ∧
    (8 * buf.length < totalBits →
      exec (.newBitStream buf totalBits order skip) s = .refused .bitStreamTooLong)

/-- `next()` (41_bitstream.md R112): `EOF` and nothing changed where no logical bit is left; else the
logical bit at the cursor, which moves on by one bit, or by two in skip mode. Rests on the spec's own
decision D8 (92_eei_decisions.md). -/
def Obligations.BitStreamNext : Prop :=
  ∀ (s : State) (h : Nat) (r : BitReader), s.readers[h]? = some r →
    r.bitOffset ≤ r.totalBits → r.totalBits ≤ 8 * r.buf.length →
    let stride := if r.skip then 2 else 1
    (r.totalBits < r.bitOffset + stride → exec (.bitNext h) s = .next { s with result := .bit none }) ∧
    (r.bitOffset + stride ≤ r.totalBits → exec (.bitNext h) s = .next { s with
      readers := s.readers.set h { r with bitOffset := r.bitOffset + stride }
      result := .bit (some r.sample) })

/-- `seek(o)` and the positions (41_bitstream.md R111, R114): a seek to the end succeeds, one bit further
fails and leaves the cursor at the end. Rests on the spec's own decision D8 (92_eei_decisions.md). -/
def Obligations.BitStreamSeekAndPositions : Prop :=
  ∀ (s : State) (h : Nat) (r : BitReader), s.readers[h]? = some r →
    let stride := if r.skip then 2 else 1
    (∀ o : Nat, exec (.bitSeek h o) s = .next { s with
      readers := s.readers.set h
        { r with bitOffset := if o * stride ≤ r.totalBits then o * stride else r.totalBits }
      result := .truth (decide (o * stride ≤ r.totalBits)) }) ∧
    exec (.bitPositions h) s = .next { s with
      result := .positions (r.bitOffset / stride) (r.totalBits / stride)
        ((r.totalBits - r.bitOffset) / stride) }

/-! ### The sync detector -/

/-- `SyncTest` and `LostClock` in both formats (42_sync_detector.md R126, R128, R132, R133): the reports
and nothing else changed. The MFM lost-clock test is stated through the clock rule its four legal triples
come from: the middle bit is 1 exactly where its neighbours are both 0. The operands are any: what happens
outside the ranges of R125 (`filled` at most 16, `cell` at most 16) is the model's choice
(notes/assumptions/27.md). Rests on the spec's own decisions D9, D10, D11, D12, D14
(92_eei_decisions.md). -/
def Obligations.SyncDetectorOperations : Prop :=
  ∀ (s : State) (reg : Word16) (filled : Nat) (hunting : Bool) (cell : Nat),
    exec (.syncTestFm reg filled hunting cell) s = .next { s with result := .sync (
      if filled < 16 then none
      else if reg = 0xF56A#16 then some (0xC7#8, 0xF8#8)
      else if reg = 0xF56B#16 then some (0xC7#8, 0xF9#8)
      else if reg = 0xF56E#16 then some (0xC7#8, 0xFA#8)
      else if reg = 0xF56F#16 then some (0xC7#8, 0xFB#8)
      else if reg = 0xF57E#16 then some (0xC7#8, 0xFE#8)
      else if reg = 0xF77A#16 then some (0xD7#8, 0xFC#8)
      else none) } ∧
    exec (.syncTestMfm reg filled hunting cell) s = .next { s with result := .sync (
      if filled < 16 then none
      else if reg.setWidth 15 = 0x4489#15 then some (0x0A#8, 0xA1#8)
      else if reg.setWidth 15 = 0x5224#15 ∧ (hunting = true ∨ cell % 2 = 0) then some (0x14#8, 0xC2#8)
      else none) } ∧
    exec (.lostClockFm reg cell) s = .next { s with
      result := .truth (decide (cell % 2 = 1 ∧ reg.getLsbD 0 = false)) } ∧
    exec (.lostClockMfm reg cell) s = .next { s with
      result := .truth (decide (cell % 2 = 0 ∧ reg.getLsbD 1 ≠ (!reg.getLsbD 2 && !reg.getLsbD 0))) }

/-- What a report says is in the register (42_sync_detector.md R127, R130), and a cell is taken apart into
the bytes it was interleaved from (00_scope.md R7; 30_encoding.md R76, R77). Rests on the spec's own
decisions D10, D14 (92_eei_decisions.md). -/
def Obligations.SyncIdentities : Prop :=
  (∀ (reg : Word16) (filled : Nat) (hunting : Bool) (cell : Nat) (c d : Byte),
    syncTestFm reg filled hunting cell = some (c, d) → c = clockOf reg ∧ d = dataOf reg) ∧
  (∀ (reg : Word16) (filled : Nat) (hunting : Bool) (cell : Nat) (c d : Byte),
    syncTestMfm reg filled hunting cell = some (c, d) →
      c = clockOf (reg &&& 0x7FFF#16) ∧ d = dataOf reg) ∧
  (∀ c d : Byte, clockOf (interleave c d) = c ∧ dataOf (interleave c d) = d) ∧
  (∀ (c d : Byte) (i : Nat), i < 8 →
    (interleave c d).getLsbD (2 * i + 1) = c.getLsbD i ∧ (interleave c d).getLsbD (2 * i) = d.getLsbD i)

/-! ### The codec -/

/-- `Decode` as an operation (43_fm_mfm_decoder.md R140): of bits given directly, and of the bits a reader
delivers until `EOF`, each the logical bit at its place. The reader is left where it delivered the last
one (the model's reading, notes/assumptions/26.md); `Unknown` is refused. Rests on the spec's own decision
D8 (92_eei_decisions.md). -/
def Obligations.DecodeOperation : Prop :=
  (∀ (s : State) (fmt : TrackFormat) (d : Density) (raw : List Bool), fmt.density? = some d →
    exec (.decode fmt (.bits raw)) s = .next { s with result := .fragments (decodeBits d raw) }) ∧
  (∀ (s : State) (fmt : TrackFormat) (d : Density) (h : Nat) (r : BitReader),
    fmt.density? = some d → s.readers[h]? = some r → r.bitOffset ≤ r.totalBits →
    r.totalBits ≤ 8 * r.buf.length →
    let stride := if r.skip then 2 else 1
    let count := (r.totalBits - r.bitOffset) / stride
    let raw := (List.range count).map fun k => ({ r with bitOffset := r.bitOffset + k * stride }).sample
    exec (.decode fmt (.reader h)) s = .next { s with
      readers := s.readers.set h { r with bitOffset := r.bitOffset + count * stride }
      result := .fragments (decodeBits d raw) }) ∧
  (∀ (s : State) (src : RawSource), exec (.decode .unknown src) s = .refused .unknownFormat)

/-- The shape of what `Decode` returns, for every bit sequence (43_fm_mfm_decoder.md R152 (a) to (e)):
fragments in order, never overlapping, never empty, their ends agreeing with their lengths; each starts
with a recognised mark, or is a recovered run (`clock = -1`), which is never first and never last and ends at
a mark cell. The run ends exactly where the next fragment starts, as clause (f) says, but where that mark cell
is overlapped by a later one: its fragment then disappears (the corner case of R148), and the next one starts
less than a cell later (notes/assumptions/35.md). Rests on the spec's own decisions D12, D13
(92_eei_decisions.md). -/
def Obligations.DecodeResultShape : Prop :=
  ∀ (d : Density) (raw : List Bool),
    (decodeBits d raw).Pairwise (fun f g => f.bitOffsetEnd ≤ g.bitOffsetStart) ∧
    (decodeBits d raw).Pairwise (fun f g => f.bitOffsetStart < g.bitOffsetStart) ∧
    (∀ f ∈ decodeBits d raw,
      1 ≤ f.byteData.length ∧ f.bitOffsetEnd = f.bitOffsetStart + 16 * f.byteData.length ∧
      f.bitOffsetEnd ≤ raw.length ∧
      (f.clock = -1 ∨ ∃ b, f.byteData.head? = some b ∧ (f.clock, b) ∈ marksOf d)) ∧
    (∀ f, (decodeBits d raw).head? = some f → f.clock ≠ -1) ∧
    (∀ f, (decodeBits d raw).getLast? = some f → f.clock ≠ -1) ∧
    (∀ before f g after, decodeBits d raw = before ++ f :: g :: after → f.clock = -1 →
      markWindow d raw f.bitOffsetEnd = true ∧
      (g.bitOffsetStart = f.bitOffsetEnd ∨
        f.bitOffsetEnd < g.bitOffsetStart ∧ g.bitOffsetStart < f.bitOffsetEnd + 16 ∧
          ∃ x, f.bitOffsetEnd < x ∧ x < f.bitOffsetEnd + 16 ∧ markWindow d raw x = true))

/-- Every byte `Decode` returns, recovered or not, is the data bits of the cell at its place in the raw
stream (43_fm_mfm_decoder.md R144, R147, R149). Rests on the spec's own decisions D12, D13
(92_eei_decisions.md). -/
def Obligations.DecodedBytesAreCells : Prop :=
  ∀ (d : Density) (raw : List Bool) (f : Fragment), f ∈ decodeBits d raw →
    ∀ (k : Nat) (b : Byte), f.byteData[k]? = some b →
      b = dataOf (cellOfBits ((raw.drop (f.bitOffsetStart + 16 * k)).take 16))

/-- `Encode` as an operation (44_fm_mfm_encoder.md R160, R169): the stream, as long as the last fragment's
end, or a refusal of a list that overlaps, descends, has an empty fragment or an inconsistent end. An odd
gap in MFM is encoded (R163, R170; notes/assumptions/40.md). Rests on the spec's own decision D17
(92_eei_decisions.md). -/
def Obligations.EncodeOperation : Prop :=
  (∀ (s : State) (fmt : TrackFormat) (d : Density) (frags : List Fragment), fmt.density? = some d →
    ((∀ f ∈ frags, 1 ≤ f.byteData.length ∧
        f.bitOffsetEnd = f.bitOffsetStart + 16 * f.byteData.length ∧ -1 ≤ f.clock ∧ f.clock ≤ 255) ∧
      frags.Pairwise (fun f g => f.bitOffsetEnd ≤ g.bitOffsetStart) →
        exec (.encode fmt frags) s = .next { s with result := .raw (encodeFragments d frags) } ∧
        (encodeFragments d frags).length = (frags.getLast?.map Fragment.bitOffsetEnd).getD 0) ∧
    (¬((∀ f ∈ frags, 1 ≤ f.byteData.length ∧
        f.bitOffsetEnd = f.bitOffsetStart + 16 * f.byteData.length ∧ -1 ≤ f.clock ∧ f.clock ≤ 255) ∧
      frags.Pairwise (fun f g => f.bitOffsetEnd ≤ g.bitOffsetStart)) →
        exec (.encode fmt frags) s = .refused .badFragments)) ∧
  (∀ (s : State) (frags : List Fragment), exec (.encode .unknown frags) s = .refused .unknownFormat)

/-- The encoded stream (44_fm_mfm_encoder.md R161 to R166). Byte `k` of a fragment is the cell at raw offset
`start + 16k`; the first byte carries the fragment's clock where it has one; every other byte has clock 0xFF
in FM and computed clock bits in MFM, 1 exactly between two 0 bits. The lead before the first fragment
alternates in the phase of that fragment, a gap in the phase of the fragment before it. Rests on the
spec's own decisions D15, D16, D17 (92_eei_decisions.md). -/
def Obligations.EncodedCells : Prop :=
  ∀ (d : Density) (frags : List Fragment), encodable frags = true →
    let out := encodeFragments d frags
    (∀ (f : Fragment) (k : Nat) (b : Byte), f ∈ frags → f.byteData[k]? = some b →
      let at_ := f.bitOffsetStart + 16 * k
      let cell := window out at_
      dataOf cell = b ∧
      (k = 0 → f.clock ≠ -1 → clockOf cell = BitVec.ofInt 8 f.clock) ∧
      (k ≠ 0 ∨ f.clock = -1 →
        match d with
        | .fm => clockOf cell = 0xFF#8
        | .mfm => ∀ j, j < 8 →
          out[at_ + 2 * j]? = some
            (!(decide (0 < at_ + 2 * j) && out.getD (at_ + 2 * j - 1) false) &&
              !out.getD (at_ + 2 * j + 1) false))) ∧
    (∀ (f : Fragment) (p : Nat), frags.head? = some f → p < f.bitOffsetStart →
      out[p]? = some (decide ((f.bitOffsetStart - p) % 2 = 0))) ∧
    (∀ (before after : List Fragment) (f g : Fragment) (p : Nat), frags = before ++ f :: g :: after →
      f.bitOffsetEnd ≤ p → p < g.bitOffsetStart → out[p]? = some (decide ((p - f.bitOffsetEnd) % 2 = 0)))

/-- The FM codec gives an FM field back: encoding one fragment that starts with a recognised mark, at any
offset and with any bytes after the mark, and decoding the stream returns exactly that fragment
(44_fm_mfm_encoder.md R170). Rests on the spec's own decisions D10, D12, D15, D16 (92_eei_decisions.md). -/
def Obligations.FmCodecRoundTrip : Prop :=
  ∀ (lead : Nat) (clock : Int) (mark : Byte) (bytes : List Byte), (clock, mark) ∈ marksOf .fm →
    let f : Fragment :=
      { bitOffsetStart := lead
        bitOffsetEnd := lead + 16 * (bytes.length + 1)
        clock := clock
        byteData := mark :: bytes }
    decodeBits .fm (encodeFragments .fm [f]) = [f]

/-- Decoding an encoded list of fragments gives the list back, field for field, in FM and in MFM
(44_fm_mfm_encoder.md R170), where each fragment starts with a recognised mark, FM fragments are fewer than
16 bits apart and MFM fragments not apart, and no window of the stream but a fragment's first cell is a mark
at a phase the detector accepts there, a fragment counting as open until its clock is lost. The lead may have
any length (before 0xA1 its last bits may be taken for a mark, which the decoder trims away). Rests on the spec's own decisions D9 to D17
(92_eei_decisions.md). -/
def Obligations.CodecRoundTrip : Prop :=
  ∀ (d : Density) (frags : List Fragment), encodable frags = true →
    (∀ f ∈ frags, ∃ b, f.byteData.head? = some b ∧ (f.clock, b) ∈ marksOf d) →
    (∀ (before after : List Fragment) (f g : Fragment), frags = before ++ f :: g :: after →
      closeEnough d f g) →
    syncOnlyAtStarts d frags (encodeFragments d frags) = true →
    decodeBits d (encodeFragments d frags) = frags

/-! ### The sector framer -/

/-- `Size`, `Matches` and `Read` (45_sector_framer.md R177, R178, R179) on a view of the track's list, and
the refusal of any other view (R175). -/
def Obligations.SectorReads : Prop :=
  ∀ (s : State) (r : TrackRef) (v : View) (t : Track), s.track? r = some t →
    (v ∈ t.sector → viewInBounds t.data v = true →
      exec (.sectorSize r v) s = .next { s with result := .number (sizeAt t.data v) } ∧
      (∀ c h n : Int, exec (.sectorMatches r v c h n) s = .next { s with result := .truth (decide (
        (c = -1 ∨ c = ((t.data.getD (v.idOff + 1) 0#8).toNat : Int)) ∧
        (h = -1 ∨ h = ((t.data.getD (v.idOff + 2) 0#8).toNat : Int)) ∧
        (n = -1 ∨ n = ((t.data.getD (v.idOff + 3) 0#8).toNat : Int)))) }) ∧
      exec (.sectorRead r v) s = .next { s with
        result := .bytes (slice t.data (v.dataOff + 1) (sizeAt t.data v)) }) ∧
    (v ∉ t.sector →
      exec (.sectorSize r v) s = .refused .staleView ∧
      (∀ c h n, exec (.sectorMatches r v c h n) s = .refused .staleView) ∧
      exec (.sectorRead r v) s = .refused .staleView)

/-- Sector `Write` (45_sector_framer.md R182): where the mark and data bytes it would store are the ones
stored, nothing changes; else they and the CRC over them are stored and the track is dirty. Every byte
outside the data field, every other track, the image's geometry and write-protect flag, and every register
but the CRC register stay. Rests on the spec's own decisions D4, D22 (92_eei_decisions.md). -/
def Obligations.SectorWriteOperation : Prop :=
  ∀ (s : State) (r : TrackRef) (v : View) (t : Track) (d : Density) (mark : Byte) (buf : List Byte),
    s.track? r = some t → v ∈ t.sector → t.format.density? = some d → viewInBounds t.data v = true →
    v.idOff + 7 ≤ v.dataOff →
    let n := sizeAt t.data v
    let image := writeImage n mark buf
    (image = slice t.data v.dataOff (1 + n) →
      exec (.sectorWrite r v mark buf) s = .next { s with result := .nothing }) ∧
    (image ≠ slice t.data v.dataOff (1 + n) →
      ∃ (s' : State) (t' : Track),
        exec (.sectorWrite r v mark buf) s = .next s' ∧
        s' = { s with
          images := (s.putTrack r t').images, crc := s'.crc, crcReady := s'.crcReady,
          result := .nothing } ∧
        sameElsewhere r s s' ∧ trackIs r t' s' ∧
        t' = { t with data := t'.data, dirty := true } ∧ t'.data.length = t.data.length ∧
        slice t'.data v.dataOff (1 + n) = image ∧
        storedCrc t'.data (v.dataOff + n + 1) (crcOver (crcPreset s.cfg d) image) = true ∧
        (∀ a, a < v.dataOff ∨ v.dataOff + n + 3 ≤ a → readByte s' r a = readByte s r a))

/-- After a sector `Write` the ID field verifies as before, and the data field verifies where the write
changed a byte or where it verified before (45_sector_framer.md R184); writing the same again changes
nothing (R185). -/
def Obligations.SectorWriteThenValid : Prop :=
  ∀ (s : State) (r : TrackRef) (v : View) (t : Track) (d : Density) (mark : Byte) (buf : List Byte),
    s.track? r = some t → v ∈ t.sector → t.format.density? = some d → viewInBounds t.data v = true →
    v.idOff + 7 ≤ v.dataOff →
    ∃ (s' : State) (t' : Track),
      exec (.sectorWrite r v mark buf) s = .next s' ∧ s'.track? r = some t' ∧ v ∈ t'.sector ∧
      idGood s.cfg d t'.data v = idGood s.cfg d t.data v ∧
      (t'.data ≠ t.data ∨ dataGood s.cfg d t.data v = true → dataGood s.cfg d t'.data v = true) ∧
      exec (.sectorWrite r v mark buf) s' = .next s'

/-! ### The track buffer -/

/-- What the offset scanner finds, exactly (46_track_buffer.md R205 to R208): an ID mark and a later data
mark, both named by the clock list with no other mark it acts on between them (so the latest ID is the one
pending, a data mark uses it up, and misaligned, outside and other entries are skipped), 7 to 33 (FM) or 45
(MFM) bytes apart by default, with both fields inside the buffer; nothing on an `Unknown` track. On an
ascending clock list the sectors stand in the order of the track. Rests on the spec's own decisions D18,
D19, D44 (92_eei_decisions.md). -/
def Obligations.LocatedSectorsExact : Prop :=
  ∀ (p : Params) (fmt : TrackFormat) (clock : List Nat) (data : List Byte),
    (∀ v : View, v ∈ locateSectors p fmt clock data ↔
      ∃ (d : Density) (i j : Nat) (m : Byte), fmt.density? = some d ∧ i < j ∧
        clock[i]? = some (8 * v.idOff) ∧ clock[j]? = some (8 * v.dataOff) ∧
        data[v.idOff]? = some 0xFE#8 ∧ data[v.dataOff]? = some m ∧ 0xF8#8 ≤ m ∧ m ≤ 0xFB#8 ∧
        (∀ k o, i < k → k < j → clock[k]? = some o → scannerActs data o = false) ∧
        v.idOff + 7 ≤ v.dataOff ∧
        v.dataOff ≤ v.idOff + (match d with | .fm => p.idDataMaxFm | .mfm => p.idDataMaxMfm) ∧
        v.idOff + 7 ≤ data.length ∧ v.dataOff + 1 + sizeAt data v + 2 ≤ data.length) ∧
    (clock.Pairwise (· ≤ ·) →
      (locateSectors p fmt clock data).Pairwise fun v w => v.dataOff < w.idOff)

/-- Track `Write` (46_track_buffer.md R198 to R203): one byte for each byte of the stream and two for each
0xF7; a clock entry for each address-mark token, in strictly rising order, at a mark; the sector list
rebuilt; the track dirty. Every other track, the image's geometry and write-protect flag and every
register but the CRC register stay; the walk is closed (notes/assumptions/14.md). Which bytes are stored,
`TokenStreamIsTrackWrite` says. Rests on the spec's own decisions D18, D20, D21, D44
(92_eei_decisions.md). -/
def Obligations.TrackWriteOperation : Prop :=
  ∀ (s : State) (r : TrackRef) (t : Track) (fmt : TrackFormat) (d : Density) (raw : List Byte),
    s.track? r = some t → fmt.density? = some d →
    ∃ (s' : State) (t' : Track),
      exec (.trackWrite r fmt raw) s = .next s' ∧
      s' = { s with
        images := (s.putTrack r t').images, crc := s'.crc, crcReady := true, walk := none,
        result := .nothing } ∧
      sameElsewhere r s s' ∧ trackIs r t' s' ∧ t'.dirty = true ∧ t'.format = fmt ∧
      t'.data.length = raw.length + raw.count 0xF7#8 ∧
      t'.clock.Pairwise (· < ·) ∧
      t'.clock.length = raw.countP (fun b => decide (0xF8#8 ≤ b) && decide (b ≤ 0xFE#8)) ∧
      (∀ o ∈ t'.clock, o % 8 = 0 ∧ ∃ m, t'.data[o / 8]? = some m ∧ 0xF8#8 ≤ m ∧ m ≤ 0xFE#8) ∧
      t'.sector = locateSectors s.cfg fmt t'.clock t'.data

/-- Each token as an operation of its own (46_track_buffer.md R199 to R202), on an open walk or on the FM
walk it opens (notes/assumptions/14.md): what it stores, the clock entry, the running CRC. Rests on the
spec's own decisions D4, D18, D20 (92_eei_decisions.md). -/
def Obligations.TokenOperations : Prop :=
  ∀ (s : State) (w : Walk) (c : Word16),
    (s.walk = some w ∧ s.crc = c) ∨
      (s.walk = none ∧ w = { density := .fm, data := [], clock := [] } ∧ c = s.cfg.crcInitFm) →
    let preset := match w.density with | .fm => s.cfg.crcInitFm | .mfm => s.cfg.crcInitMfm
    let literal := fun b : Byte => Host.Outcome.next (tokenStored w [b] false (crcUpdateByte c b) s)
    let mark := fun b : Byte => Host.Outcome.next (tokenStored w [b] true (crcUpdateByte preset b) s)
    (∀ x, exec (.lit00to7F x) s = literal (0#1 ++ x)) ∧
    (∀ x, exec (.lit80toBF x) s = literal (0b10#2 ++ x)) ∧
    (∀ x, exec (.litC0toDF x) s = literal (0b110#3 ++ x)) ∧
    (∀ x, exec (.litE0toEF x) s = literal (0b1110#4 ++ x)) ∧
    (∀ x, exec (.litF0toF3 x) s = literal (0b111100#6 ++ x)) ∧
    exec .litF4 s = literal 0xF4#8 ∧
    exec .litFF s = literal 0xFF#8 ∧
    exec .tokF5 s = literal (match w.density with | .fm => 0xF5#8 | .mfm => 0xA1#8) ∧
    exec .tokF6 s = literal (match w.density with | .fm => 0xF6#8 | .mfm => 0xC2#8) ∧
    exec .tokCrc s =
      .next (tokenStored w [c.extractLsb' 8 8, c.extractLsb' 0 8] false 0x0000#16 s) ∧
    (∀ x, exec (.tokDam x) s = mark (0b111110#6 ++ x)) ∧
    exec .tokIxam s = mark 0xFC#8 ∧
    exec .tokFd s = mark 0xFD#8 ∧
    exec .tokIdam s = mark 0xFE#8

/-- A track `Write` in FM or MFM is the walk its tokens make when they run one after another, each as an
operation of its own, installed in the track: bytes, clock entries and running CRC (46_track_buffer.md R198
to R203). The tokens start from an open walk of the format with nothing in it and the format's preset, or,
for FM, from none: that the first token then opens an FM walk is the model's choice
(notes/assumptions/14.md). What each token does, `TokenOperations` says. Rests on the spec's own decisions
D4, D18, D20, D21 (92_eei_decisions.md). -/
def Obligations.TokenStreamIsTrackWrite : Prop :=
  ∀ (s : State) (r : TrackRef) (t : Track) (d : Density) (raw : List Byte),
    s.track? r = some t → raw ≠ [] →
    (s.walk = none ∧ d = .fm) ∨
      (s.walk = some { density := d, data := [], clock := [] } ∧
        s.crc = match d with | .fm => s.cfg.crcInitFm | .mfm => s.cfg.crcInitMfm) →
    ∃ (w : Walk) (c : Word16) (s' : State) (t' : Track),
      runTokens raw s =
        .next { s with walk := some w, crc := c, crcReady := true, result := .nothing } ∧
      w.density = d ∧
      exec (.trackWrite r d.format raw) s = .next s' ∧ s'.crc = c ∧ s'.track? r = some t' ∧
      t'.format = d.format ∧ t'.data = w.data ∧ t'.clock = w.clock

/-- `RawWrite` (46_track_buffer.md R204): content installed as it is, `dirty` cleared, the sector list
rebuilt, nothing else changed, the image's geometry and write-protect flag included; refused for a clock
list that does not ascend (equal entries ascend, notes/assumptions/20.md) and during a transfer
(20_memory.md R57), which the model reads as any transfer, on whatever track (notes/assumptions/18.md).
Rests on the spec's own decision D21 (92_eei_decisions.md). -/
def Obligations.RawWriteOperation : Prop :=
  ∀ (s : State) (r : TrackRef) (t : Track) (fmt : TrackFormat) (clock : List Nat) (data : List Byte),
    s.track? r = some t →
    (clock.Pairwise (· ≤ ·) → s.cmdInProgress = .none →
      let t' : Track :=
        { dirty := false, format := fmt, clock := clock, data := data,
          sector := locateSectors s.cfg fmt clock data }
      ∃ s' : State, exec (.trackRawWrite r fmt clock data) s = .next s' ∧
        s' = { s with images := (s.putTrack r t').images, result := .nothing } ∧ sameElsewhere r s s' ∧
        trackIs r t' s') ∧
    (¬clock.Pairwise (· ≤ ·) → exec (.trackRawWrite r fmt clock data) s = .refused .clockNotAscending) ∧
    (clock.Pairwise (· ≤ ·) → s.cmdInProgress ≠ .none →
      exec (.trackRawWrite r fmt clock data) s = .refused .loaderDuringTransfer)

/-- `LocateSectors` and `GetSector` (46_track_buffer.md R205, R210): the first rebuilds the sector list of
the track (`LocatedSectorsExact` says what it then holds) and changes nothing else, the image's geometry and
write-protect flag included; the second returns the first sector in list order that matches, or none. -/
def Obligations.LocateAndGetSector : Prop :=
  ∀ (s : State) (r : TrackRef) (t : Track), s.track? r = some t →
    (∃ s' : State, exec (.trackLocateSectors r) s = .next s' ∧
      s' = { s with
        images := (s.putTrack r { t with
          sector := locateSectors s.cfg t.format t.clock t.data }).images
        result := .nothing } ∧
      sameElsewhere r s s' ∧
      trackIs r { t with sector := locateSectors s.cfg t.format t.clock t.data } s') ∧
    (∀ c h n : Int, t.sector.all (viewInBounds t.data) = true →
      ∃ found : Option View, exec (.trackGetSector r c h n) s = .next { s with result := .view found } ∧
      let hit := fun v : View =>
        (c = -1 ∨ c = ((t.data.getD (v.idOff + 1) 0#8).toNat : Int)) ∧
        (h = -1 ∨ h = ((t.data.getD (v.idOff + 2) 0#8).toNat : Int)) ∧
        (n = -1 ∨ n = ((t.data.getD (v.idOff + 3) 0#8).toNat : Int))
      match found with
      | none => ∀ v ∈ t.sector, ¬hit v
      | some v => hit v ∧ ∃ before after, t.sector = before ++ v :: after ∧ ∀ u ∈ before, ¬hit u)

/-! ### Ports and latch -/

/-- Reads of the four ports outside a read transfer (47_controller_interface.md R222 to R225; 20_memory.md
R46): the complement of the logical value, and nothing else changed. `INDEX` is computed for a Status
read. Rests on the spec's own decisions D37, D40 (92_eei_decisions.md). -/
def Obligations.PortReads : Prop :=
  ∀ s : State, s.timedOut = false →
    exec .rsta s = .next { s with result := .bus (~~~(
      if s.statusTypeI = true ∧ (s.drives.get s.driveSelect).isSome = true ∧
        (s.now - s.startClock) % s.cfg.clocksPerRev < s.cfg.indexPulseClocks
      then s.statusRegister ||| s.cfg.mask .index else s.statusRegister)) } ∧
    exec .rtrk s = .next { s with result := .bus (~~~s.trackRegister) } ∧
    exec .rsec s = .next { s with result := .bus (~~~s.sectorRegister) } ∧
    (s.cmdInProgress ∉ [.readSector, .readAddress, .readTrack] →
      exec .rdat s = .next { s with result := .bus (~~~s.dataRegister) })

/-- Writes of the Track, Sector and Data ports outside a write transfer (47_controller_interface.md R227,
R228, R229): one register takes the complement of the bus byte. Rests on the spec's own decisions D37, D38
(92_eei_decisions.md). -/
def Obligations.PortWrites : Prop :=
  ∀ (s : State) (bus : Byte), s.timedOut = false →
    exec (.wtrk bus) s = .next { s with trackRegister := ~~~bus, result := .nothing } ∧
    exec (.wsec bus) s = .next { s with sectorRegister := ~~~bus, result := .nothing } ∧
    (s.cmdInProgress ∉ [.writeSector, .writeTrack] →
      exec (.wdat bus) s = .next { s with dataRegister := ~~~bus, result := .nothing })

/-- A Command-port write runs the command whose byte is the complement of the bus byte
(47_controller_interface.md R226, 20_memory.md R46); a Type I or Type IV one is complete when the write
is. Rests on the spec's own decisions D25, D28, D35 (92_eei_decisions.md). -/
def Obligations.CommandPortWrite : Prop :=
  (∀ (s : State) (bus : Byte), exec (.wcmd bus) s = exec (decodeCommand (~~~bus)) s) ∧
  (∀ (s : State) (bus : Byte), s.timedOut = false → s.cfg.wf = true → Memory.wf s.images = true →
    (bus.getLsbD 7 = true ∨ bus.extractLsb' 4 4 = 0x2#4) →
    ∃ t : State, exec (.wcmd bus) s = .next t ∧ t.cmdInProgress = .none ∧ t.xferTarget = none ∧
      statusHas t .busy = false ∧ t.drives = s.drives ∧ t.images = s.images ∧ t.result = .nothing)

/-- `CruWrite(n, v)` (47_controller_interface.md R230): bit `n` of the latch takes the value, the others
stay; drive and head follow the latch, the lowest numbered drive winning. Rests on the spec's own decision
D39 (92_eei_decisions.md). -/
def Obligations.CruWrites : Prop :=
  ∀ (s : State) (v : Bool) (n : Nat) (i : Instr),
    (n, i) ∈ [(0, Instr.cru0 v), (1, .cru1 v), (2, .cru2 v), (3, .cru3 v), (4, .cru4 v), (5, .cru5 v),
      (6, .cru6 v), (7, .cru7 v)] →
    ∃ bits : Byte, exec i s = .next { s with
        hardwareBits := bits
        driveSelect :=
          if bits.getLsbD 4 then 1 else if bits.getLsbD 5 then 2 else if bits.getLsbD 6 then 3 else 0
        headSelect := BitVec.ofBool (bits.getLsbD 7)
        result := .nothing } ∧
      ∀ k, k < 8 → bits.getLsbD k = if k = n then v else s.hardwareBits.getLsbD k

/-! ### Commands -/

/-- Restore and Seek (48_controller_type1_type4.md R251, R252, R256, R257, R258), with and without
verification: head, track register, direction, status. The verification may run over the CRC register
(notes/assumptions/12.md). Rests on the spec's own decisions D26, D27, D28, D29, D30
(92_eei_decisions.md). -/
def Obligations.RestoreAndSeek : Prop :=
  ∀ (s : State) (h v : Bool) (r : BitVec 2), s.timedOut = false → Memory.wf s.images = true →
    let d : Int := (s.dataRegister.toNat : Int) - (s.trackRegister.toNat : Int)
    let target : Int := (s.trackSelect : Int) + d
    let cylinder : Nat :=
      if target < 0 then 0 else if (s.cfg.maxCylinder : Int) < target then s.cfg.maxCylinder
      else target.toNat
    let dir := if 0 < d then StepDir.inward else if d < 0 then .outward else s.stepDir
    (∃ c ready, exec (.restore h v r) s =
        .next { typeOneEnds v 0 0x00#8 .outward s with crc := c, crcReady := ready } ∧
      (v = false → c = s.crc ∧ ready = s.crcReady)) ∧
    (∃ c ready, exec (.seek h v r) s =
        .next { typeOneEnds v cylinder s.dataRegister dir s with crc := c, crcReady := ready } ∧
      (v = false → c = s.crc ∧ ready = s.crcReady))

/-- Step, Step-In and Step-Out (48_controller_type1_type4.md R253 to R258), with and without update and
verification: one cylinder in the direction, clamped; the track register follows with `u`, saturated.
Rests on the spec's own decisions D26, D28, D29, D30 (92_eei_decisions.md). -/
def Obligations.StepCommands : Prop :=
  ∀ (s : State) (i : Instr) (dir : StepDir) (u h v : Bool) (r : BitVec 2),
    s.timedOut = false → Memory.wf s.images = true →
    (i, dir) ∈ [(Instr.step u h v r, s.stepDir), (.stepin u h v r, .inward), (.stepout u h v r, .outward)] →
    let cylinder : Nat :=
      match dir with
      | .inward => min (s.trackSelect + 1) s.cfg.maxCylinder
      | .outward => min (s.trackSelect - 1) s.cfg.maxCylinder
    let register : Byte :=
      match u, dir with
      | false, _ => s.trackRegister
      | true, .inward => if s.trackRegister = 0xFF#8 then 0xFF#8 else s.trackRegister + 1#8
      | true, .outward => if s.trackRegister = 0x00#8 then 0x00#8 else s.trackRegister - 1#8
    ∃ c ready, exec i s =
        .next { typeOneEnds v cylinder register dir s with crc := c, crcReady := ready } ∧
      (v = false → c = s.crc ∧ ready = s.crcReady)

/-- Force Interrupt (48_controller_type1_type4.md R262; 47_controller_interface.md R233): `BUSY` and `DRQ`
cleared, the transfer dropped without commit, the anomaly counted; every other register and every track
stay. Rests on the spec's own decisions D26, D35, D36, D46 (92_eei_decisions.md). -/
def Obligations.ForceInterruptCommand : Prop :=
  ∀ (s : State) (x : BitVec 4), s.timedOut = false →
    exec (.forceint x) s = .next { s with
      statusRegister := s.statusRegister &&& ~~~(s.cfg.mask .busy ||| s.cfg.mask .drq)
      cmdInProgress := .none
      xferTarget := none
      anomalies := if statusHas s .drq then s.anomalies + 1 else s.anomalies
      result := .nothing }

/-- Lookup failure (49_controller_type2_type3.md R272; 60_exceptions.md R303, R306): where no sector of the
current track carries the two registers, or there is no current track, Read Sector and Write Sector do the
common part of the command write (47_controller_interface.md R233), leave `NOT_FOUND` alone in the status
(0x10 in the default layout), and nothing else. On a protected medium `WriteProtectedCommands` says what
Write Sector does. The count of the command-in-`DRQ` anomaly is the model's ghost (notes/assumptions/21.md).
Rests on the spec's own decisions D26, D31, D36, D46 (92_eei_decisions.md). -/
def Obligations.NotFoundCommands : Prop :=
  ∀ (s : State), s.timedOut = false →
    let failed : Out := .next { accepted false s with statusRegister := s.cfg.mask .notFound }
    (∀ t, s.curTrack = some t → sectorNamed t s.trackRegister s.sectorRegister = none) →
      (∀ m sb e ca1 a0, exec (.rdsec m sb e ca1 a0) s = failed) ∧
      (protectedNow s = false → ∀ m sb e ca1 a0, exec (.wrsec m sb e ca1 a0) s = failed)

/-- Write protection (49_controller_type2_type3.md R275, R281; 60_exceptions.md R305): whatever sector the
registers name, Write Sector and Write Track leave `WRITE_PROTECTED` alone in the status (0x40 in the
default layout), stage nothing and change no track.
Rests on the spec's own decisions D26, D31, D34, D36 (92_eei_decisions.md). -/
def Obligations.WriteProtectedCommands : Prop :=
  ∀ (s : State), s.timedOut = false → protectedNow s = true →
    (∀ m sb e ca1 a0, exec (.wrsec m sb e ca1 a0) s =
      .next { accepted false s with statusRegister := s.cfg.mask .writeProtected }) ∧
    (∀ x, exec (.wrtrk x) s = .next { accepted false s with statusRegister := s.cfg.mask .writeProtected })

/-- Read Sector (49_controller_type2_type3.md R274; 30_encoding.md R71, R72). Sector found: the data bytes
are staged whatever their CRC; the status shows the data mark by variant and the CRC check. Not found: the
status is `NOT_FOUND` and nothing is staged. The flag bits change nothing (R273). Rests on the spec's own
decisions D26, D31, D36 (92_eei_decisions.md). -/
def Obligations.ReadSectorCommand : Prop :=
  ∀ (s : State) (m sb e ca1 a0 : Bool), s.timedOut = false →
    ((∀ t, s.curTrack = some t → sectorNamed t s.trackRegister s.sectorRegister = none) →
      exec (.rdsec m sb e ca1 a0) s =
        .next { accepted false s with statusRegister := s.cfg.mask .notFound }) ∧
    ∀ (t : Track) (v : View) (d : Density) (mark : Byte), s.curTrack = some t →
    sectorNamed t s.trackRegister s.sectorRegister = some v → t.format.density? = some d →
    viewInBounds t.data v = true → t.data[v.dataOff]? = some mark →
    let kind : Byte :=
      if s.cfg.isFD1771 then
        (if mark.getLsbD 1 then 0x00#8 else s.cfg.mask .recordHigh) |||
          (if mark.getLsbD 0 then 0x00#8 else s.cfg.mask .recordLow)
      else if mark = 0xF8#8 then s.cfg.mask .recordType else 0x00#8
    let crcBit : Byte := if dataGood s.cfg d t.data v then 0x00#8 else s.cfg.mask .crcError
    ∃ c ready, exec (.rdsec m sb e ca1 a0) s = .next
      { transferStaged .readSector (slice t.data (v.dataOff + 1) (sizeAt t.data v))
          (kind ||| crcBit) s with
        dataMark := mark, readDataPtr := 0, crc := c, crcReady := ready }

/-- Write Sector and Write Track on a medium that is not protected, with the track there
(49_controller_type2_type3.md R276, R277, R281): a buffer of zeros is staged and the target captured; no
track changes. The command's low bits choose the data mark. With no such sector the status is `NOT_FOUND`
and nothing is staged. Rests on the spec's own decisions D31, D32, D34, D36 (92_eei_decisions.md). -/
def Obligations.WriteCommandsStage : Prop :=
  ∀ (s : State) (t : Track), s.timedOut = false → s.curTrack = some t → protectedNow s = false →
    let here : TrackRef := ⟨s.driveSelect, s.trackSelect, s.headSelect.toNat⟩
    (∀ m sb e ca1 a0, sectorNamed t s.trackRegister s.sectorRegister = none →
      exec (.wrsec m sb e ca1 a0) s =
        .next { accepted false s with statusRegister := s.cfg.mask .notFound }) ∧
    (∀ (m sb e ca1 a0 : Bool) (v : View), sectorNamed t s.trackRegister s.sectorRegister = some v →
      viewInBounds t.data v = true →
      exec (.wrsec m sb e ca1 a0) s = .next
        { transferStaged .writeSector (List.replicate (sizeAt t.data v) 0x00#8) 0x00#8 s with
          xferTarget := some { track := here, sector := some v }
          dataMark :=
            match s.cfg.isFD1771, ca1, a0 with
            | true, false, false => 0xFB#8
            | true, false, true => 0xFA#8
            | true, true, false => 0xF9#8
            | true, true, true => 0xF8#8
            | false, _, false => 0xFB#8
            | false, _, true => 0xF8#8 }) ∧
    (∀ x : BitVec 4, exec (.wrtrk x) s = .next
      { transferStaged .writeTrack (List.replicate s.cfg.trackBytesFm 0x00#8) 0x00#8 s with
        xferTarget := some { track := here, sector := none } })

/-- Read Address, Read Track and Write Track without a track (49_controller_type2_type3.md R278, R280, R281;
60_exceptions.md R303): the six bytes after the first ID's mark, whatever their CRC, and the whole track;
with no track, no sector, no data, or an `Unknown` track, the status `NOT_FOUND`, and with no track for
Write Track (R281) too. That an `Unknown` track with bytes in it is not found is the model's reading
(notes/assumptions/38.md). Rests on the spec's own decisions D33, D34, D36, D45 (92_eei_decisions.md). -/
def Obligations.ReadAddressAndTrack : Prop :=
  ∀ (s : State) (x : BitVec 4), s.timedOut = false →
    let failed : Out := .next { accepted false s with statusRegister := s.cfg.mask .notFound }
    ((∀ t, s.curTrack = some t → t.sector = []) → exec (.rdaddr x) s = failed) ∧
    ((∀ t, s.curTrack = some t → t.format = .unknown ∨ t.data = []) → exec (.rdtrk x) s = failed) ∧
    (s.curTrack = none → protectedNow s = false → exec (.wrtrk x) s = failed) ∧
    ∀ t : Track, s.curTrack = some t →
    (∀ (v : View) (d : Density), t.sector.head? = some v → t.format.density? = some d →
      v.idOff + 7 ≤ t.data.length →
      ∃ c ready, exec (.rdaddr x) s = .next
        { transferStaged .readAddress (slice t.data (v.idOff + 1) 6)
            (if idGood s.cfg d t.data v then 0x00#8 else s.cfg.mask .crcError) s with
          readDataPtr := 0, crc := c, crcReady := ready }) ∧
    (t.format ≠ .unknown → t.data ≠ [] → exec (.rdtrk x) s = .next
      { transferStaged .readTrack t.data 0x00#8 s with readDataPtr := 0 })

/-! ### The byte transfer -/

/-- A Data-port read during a read transfer (49_controller_type2_type3.md R282, R283): the next byte of the
buffer, complemented, also in the data register; the last one ends the transfer. -/
def Obligations.TransferRead : Prop :=
  ∀ (s : State) (l : Byte), s.timedOut = false →
    s.cmdInProgress ∈ [Transfer.readSector, .readAddress, .readTrack] →
    s.dataBuffer[s.readDataPtr]? = some l →
    let moved : State := { s with
      dataRegister := l, readDataPtr := s.readDataPtr + 1, bytesLeft := s.bytesLeft - 1,
      result := .bus (~~~l) }
    exec .rdat s = .next (if s.bytesLeft ≤ 1 then transferEnded moved else moved)

/-- A Data-port write during a write transfer (49_controller_type2_type3.md R284, R285, R286): the byte is
stored at its place in the buffer; the last one commits what sector `Write` or track `Write` in FM of
the buffer does, and ends the transfer. -/
def Obligations.TransferWrite : Prop :=
  ∀ (s : State) (bus : Byte), s.timedOut = false →
    s.cmdInProgress ∈ [Transfer.writeSector, .writeTrack] →
    s.bytesExpected - s.bytesLeft < s.dataBuffer.length →
    let moved : State := { s with
      dataRegister := ~~~bus
      dataBuffer := s.dataBuffer.set (s.bytesExpected - s.bytesLeft) (~~~bus)
      bytesLeft := s.bytesLeft - 1
      result := .nothing }
    (1 < s.bytesLeft → exec (.wdat bus) s = .next moved) ∧
    (s.bytesLeft ≤ 1 → ∀ (r : TrackRef) (v : View) (s' : State),
      s.cmdInProgress = .writeSector → s.xferTarget = some { track := r, sector := some v } →
      exec (.sectorWrite r v s.dataMark moved.dataBuffer) moved = .next s' →
      exec (.wdat bus) s = .next (transferEnded s')) ∧
    (s.bytesLeft ≤ 1 → ∀ (r : TrackRef) (s' : State),
      s.cmdInProgress = .writeTrack → s.xferTarget = some { track := r, sector := none } →
      exec (.trackWrite r .fm (moved.dataBuffer.take s.bytesExpected)) moved = .next s' →
      exec (.wdat bus) s = .next (transferEnded s'))

/-- The revolution time-out (60_exceptions.md R313): every register access to a Read Track or a Write
Track whose revolution has elapsed runs as if that transfer had just ended, a Write Track with the bytes
received committed as the whole track (49_controller_type2_type3.md R286). Rests on the spec's own
decisions D34, D39 (92_eei_decisions.md). -/
def Obligations.RevolutionTimeOut : Prop :=
  ∀ (s : State) (i : Instr), (i.format = .cmd8 ∨ i.format = .port) →
    s.cfg.clocksPerRev ≤ s.now - s.startClock →
    (s.cmdInProgress = .readTrack → exec i s = exec i (transferEnded s)) ∧
    (∀ r : TrackRef, s.cmdInProgress = .writeTrack →
      s.xferTarget = some { track := r, sector := none } → (s.track? r).isSome = true →
      ∃ s' : State,
        exec (.trackWrite r .fm (s.dataBuffer.take (s.bytesExpected - s.bytesLeft))) s = .next s' ∧
        exec i s = exec i (transferEnded { s' with result := s.result }))

/-! ### Reset -/

/-- `Reset` (70_reset_and_hazards.md R330, R331): the controller at its reset values, a transfer dropped;
images, parameters and the anomaly log stay, and so does the list of coming operations, which is the
environment's. That the clock value and the readers stay too is the model's choice
(notes/assumptions/13.md, 24.md). Left out: the CRC register, the open walk and `xferDrive`
(notes/assumptions/11.md, 14.md, 19.md). Rests on the spec's own decision D3 (92_eei_decisions.md). -/
def Obligations.ResetOperation : Prop :=
  ∀ s : State, ∃ s' : State, exec .reset s = .next s' ∧
    s' = { s with
      hardwareBits := 0x00#8
      driveSelect := 0
      headSelect := 0#1
      trackSelect := 0
      trackRegister := 0x00#8
      sectorRegister := 0x00#8
      dataRegister := 0x00#8
      statusRegister := 0x00#8
      statusTypeI := true
      dataMark := 0xFB#8
      dataBuffer := []
      bytesExpected := 0
      bytesLeft := 0
      readDataPtr := 0
      cmdInProgress := .none
      xferTarget := none
      startClock := 0
      stepDir := if s.cfg.resetStepIn then .inward else .outward
      result := .nothing
      crc := s'.crc
      crcReady := s'.crcReady
      walk := s'.walk
      xferDrive := s'.xferDrive }

/-- The reset values (10_state.md R32): of the controller, whatever the parameters, with `stepDir` -1 by
default; of a blank track, a new reader, a decode and an encode; a CRC register that may not be read;
`Reset` leaves the drives and the images. The default status layout is that of 30_encoding.md R70 to R72, in both
variants, and head-load is CRU bit 3 (notes/assumptions/6.md). Rests on the spec's own decision D3 (92_eei_decisions.md). -/
def Obligations.ResetState : Prop :=
  (∀ p : Params,
    let s := State.resetWith p
    s.hardwareBits = 0x00#8 ∧ s.driveSelect = 0 ∧ s.headSelect = 0#1 ∧ s.trackSelect = 0 ∧
    s.trackRegister = 0x00#8 ∧ s.sectorRegister = 0x00#8 ∧ s.dataRegister = 0x00#8 ∧
    s.statusRegister = 0x00#8 ∧ s.statusTypeI = true ∧ s.dataMark = 0xFB#8 ∧ s.bytesExpected = 0 ∧
    s.bytesLeft = 0 ∧ s.readDataPtr = 0 ∧ s.dataBuffer = [] ∧ s.cmdInProgress = .none ∧
    s.startClock = 0 ∧ s.xferTarget = none ∧ s.crcReady = false ∧
    (p.resetStepIn = false → s.stepDir = .outward)) ∧
  State.reset.stepDir = .outward ∧
  (∀ (b : StatusBit) (m : Byte),
    (b, m) ∈ [(StatusBit.notReady, 0x80#8), (.writeProtected, 0x40#8), (.headLoaded, 0x20#8),
      (.recordType, 0x20#8), (.recordHigh, 0x40#8), (.recordLow, 0x20#8), (.seekError, 0x10#8),
      (.notFound, 0x10#8), (.crcError, 0x08#8), (.track0, 0x04#8), (.lostData, 0x04#8), (.index, 0x02#8),
      (.drq, 0x02#8), (.busy, 0x01#8)] → State.reset.cfg.mask b = m) ∧
  State.reset.cfg.cruHeadLoad = 3 ∧
  Track.blank = { dirty := false, format := .unknown, clock := [], data := [], sector := [] } ∧
  (∀ buf totalBits order skip, (newBitReader buf totalBits order skip).bitOffset = 0) ∧
  DecoderState.start = { reg := 0#16, filled := 0, cell := 0, cur := none, frags := [], pos := 0 } ∧
  EncoderState.start = { out := [], prevEnd := none } ∧
  (∀ s : State, ∃ s' : State, exec .reset s = .next s' ∧ s'.drives = s.drives ∧ s'.images = s.images)

/-! ### The machine as a whole -/

/-- The invariant holds right after reset. -/
def Obligations.ResetMeetsInvariant : Prop := Inv State.reset

/-- Every step that answers a next state keeps the invariant, from every state that meets it: the
parameters, the memory's form, the drives' references, the selection latch, `BUSY`, `DRQ`, `NOT_READY` and `LOST_DATA`, the
transfer counters and target, the readers, the clock. Rests on the spec's own decisions D27, D39, D41
(92_eei_decisions.md). -/
def Obligations.StepKeepsInvariant : Prop :=
  ∀ s s' : State, Inv s → Machine.step s = .next s' → Inv s'

/-- Host accesses of the register interface and the latch are honoured (60_exceptions.md R300, R320;
70_reset_and_hazards.md R336, R342) from every state that meets the invariant, whose views are in bounds and
whose captured sector is still listed: no command, port access or CRU write is refused there. The last two
are premises: a run can reach states without them, and there the model refuses (notes/assumptions/16.md,
17.md). Rests on the spec's own decision D3 (92_eei_decisions.md). -/
def Obligations.HostAccessNeverRefused : Prop :=
  ∀ (s : State) (i : Instr), Inv s → boundsOk s = true → targetListed s = true →
    (i.format = .cmd8 ∨ i.format = .port ∨ i.format = .cru8) → ∃ s', exec i s = .next s'

/-- Only Type I commands and `Reset` move the head or change the step direction (10_state.md R16, R19).
Rests on the spec's own decisions D27, D28 (92_eei_decisions.md). -/
def Obligations.HeadMovesOnlyByTypeI : Prop :=
  ∀ (s s' : State) (i : Instr), exec i s = .next s' →
    s'.trackSelect ≠ s.trackSelect ∨ s'.stepDir ≠ s.stepDir →
    (∃ h v r, i = .restore h v r) ∨ (∃ h v r, i = .seek h v r) ∨ (∃ u h v r, i = .step u h v r) ∨
      (∃ u h v r, i = .stepin u h v r) ∨ (∃ u h v r, i = .stepout u h v r) ∨ i = .reset ∨
      (∃ bus, i = .wcmd bus ∧ bus.getLsbD 7 = true)

/-- A host access changes a track only as the commit of a write transfer: a Data-port write of its last
byte, or any register access to a Write Track that has timed out (20_memory.md R57;
49_controller_type2_type3.md R284, R288). The target is then the only track that changes, seen
through every drive that refers to its image, no drive changes, and every image keeps geometry and
write-protect flag (10_state.md R20, 70_reset_and_hazards.md R335). -/
def Obligations.TracksChangeOnlyByCommit : Prop :=
  ∀ (s s' : State) (i : Instr), exec i s = .next s' →
    (i.format = .cmd8 ∨ i.format = .port ∨ i.format = .cru8) → s'.images ≠ s.images ∨ s'.drives ≠ s.drives →
    ∃ x t', s.xferTarget = some x ∧ s'.images = (s.putTrack x.track t').images ∧
      sameElsewhere x.track s s' ∧ trackIs x.track t' s' ∧
      ((∃ bus, i = .wdat bus ∧ s.bytesLeft ≤ 1 ∧ s.cmdInProgress ∈ [.writeSector, .writeTrack]) ∨
        (i.format ≠ .cru8 ∧ s.cmdInProgress = .writeTrack ∧ s.cfg.clocksPerRev ≤ s.now - s.startClock))
end

