-- ==== Sys2Proof/Laws/State.lean ====
section
/-! SUPPORT. What each update of the state leaves in each field: one lemma per field per update, so that no
later proof unfolds a record update. -/

namespace Sys2Proof.Machine

/-! ### `raiseCondition` -/

@[simp] theorem raiseCondition_hardwareBits (m : Byte) (s : State) :
    (raiseCondition m s).hardwareBits = s.hardwareBits := rfl
@[simp] theorem raiseCondition_driveSelect (m : Byte) (s : State) :
    (raiseCondition m s).driveSelect = s.driveSelect := rfl
@[simp] theorem raiseCondition_headSelect (m : Byte) (s : State) :
    (raiseCondition m s).headSelect = s.headSelect := rfl
@[simp] theorem raiseCondition_trackSelect (m : Byte) (s : State) :
    (raiseCondition m s).trackSelect = s.trackSelect := rfl
@[simp] theorem raiseCondition_trackRegister (m : Byte) (s : State) :
    (raiseCondition m s).trackRegister = s.trackRegister := rfl
@[simp] theorem raiseCondition_sectorRegister (m : Byte) (s : State) :
    (raiseCondition m s).sectorRegister = s.sectorRegister := rfl
@[simp] theorem raiseCondition_dataRegister (m : Byte) (s : State) :
    (raiseCondition m s).dataRegister = s.dataRegister := rfl
@[simp] theorem raiseCondition_statusRegister (m : Byte) (s : State) :
    (raiseCondition m s).statusRegister = s.statusRegister ||| m := rfl
@[simp] theorem raiseCondition_statusTypeI (m : Byte) (s : State) :
    (raiseCondition m s).statusTypeI = s.statusTypeI := rfl
@[simp] theorem raiseCondition_dataMark (m : Byte) (s : State) :
    (raiseCondition m s).dataMark = s.dataMark := rfl
@[simp] theorem raiseCondition_dataBuffer (m : Byte) (s : State) :
    (raiseCondition m s).dataBuffer = s.dataBuffer := rfl
@[simp] theorem raiseCondition_bytesExpected (m : Byte) (s : State) :
    (raiseCondition m s).bytesExpected = s.bytesExpected := rfl
@[simp] theorem raiseCondition_bytesLeft (m : Byte) (s : State) :
    (raiseCondition m s).bytesLeft = s.bytesLeft := rfl
@[simp] theorem raiseCondition_readDataPtr (m : Byte) (s : State) :
    (raiseCondition m s).readDataPtr = s.readDataPtr := rfl
@[simp] theorem raiseCondition_cmdInProgress (m : Byte) (s : State) :
    (raiseCondition m s).cmdInProgress = s.cmdInProgress := rfl
@[simp] theorem raiseCondition_startClock (m : Byte) (s : State) :
    (raiseCondition m s).startClock = s.startClock := rfl
@[simp] theorem raiseCondition_stepDir (m : Byte) (s : State) :
    (raiseCondition m s).stepDir = s.stepDir := rfl
@[simp] theorem raiseCondition_xferTarget (m : Byte) (s : State) :
    (raiseCondition m s).xferTarget = s.xferTarget := rfl
@[simp] theorem raiseCondition_drives (m : Byte) (s : State) : (raiseCondition m s).drives = s.drives := rfl
@[simp] theorem raiseCondition_images (m : Byte) (s : State) : (raiseCondition m s).images = s.images := rfl
@[simp] theorem raiseCondition_crc (m : Byte) (s : State) : (raiseCondition m s).crc = s.crc := rfl
@[simp] theorem raiseCondition_crcReady (m : Byte) (s : State) :
    (raiseCondition m s).crcReady = s.crcReady := rfl
@[simp] theorem raiseCondition_readers (m : Byte) (s : State) :
    (raiseCondition m s).readers = s.readers := rfl
@[simp] theorem raiseCondition_walk (m : Byte) (s : State) : (raiseCondition m s).walk = s.walk := rfl
@[simp] theorem raiseCondition_cfg (m : Byte) (s : State) : (raiseCondition m s).cfg = s.cfg := rfl
@[simp] theorem raiseCondition_now (m : Byte) (s : State) : (raiseCondition m s).now = s.now := rfl
@[simp] theorem raiseCondition_pending (m : Byte) (s : State) :
    (raiseCondition m s).pending = s.pending := rfl
@[simp] theorem raiseCondition_result (m : Byte) (s : State) : (raiseCondition m s).result = s.result := rfl
@[simp] theorem raiseCondition_anomalies (m : Byte) (s : State) :
    (raiseCondition m s).anomalies = s.anomalies := rfl
@[simp] theorem raiseCondition_xferDrive (m : Byte) (s : State) :
    (raiseCondition m s).xferDrive = s.xferDrive := rfl

/-! ### `clearConditions` -/

@[simp] theorem clearConditions_hardwareBits (s : State) :
    (clearConditions s).hardwareBits = s.hardwareBits := rfl
@[simp] theorem clearConditions_driveSelect (s : State) :
    (clearConditions s).driveSelect = s.driveSelect := rfl
@[simp] theorem clearConditions_headSelect (s : State) : (clearConditions s).headSelect = s.headSelect := rfl
@[simp] theorem clearConditions_trackSelect (s : State) :
    (clearConditions s).trackSelect = s.trackSelect := rfl
@[simp] theorem clearConditions_trackRegister (s : State) :
    (clearConditions s).trackRegister = s.trackRegister := rfl
@[simp] theorem clearConditions_sectorRegister (s : State) :
    (clearConditions s).sectorRegister = s.sectorRegister := rfl
@[simp] theorem clearConditions_dataRegister (s : State) :
    (clearConditions s).dataRegister = s.dataRegister := rfl
@[simp] theorem clearConditions_statusRegister (s : State) :
    (clearConditions s).statusRegister = 0x00#8 := rfl
@[simp] theorem clearConditions_statusTypeI (s : State) :
    (clearConditions s).statusTypeI = s.statusTypeI := rfl
@[simp] theorem clearConditions_dataMark (s : State) : (clearConditions s).dataMark = s.dataMark := rfl
@[simp] theorem clearConditions_dataBuffer (s : State) : (clearConditions s).dataBuffer = s.dataBuffer := rfl
@[simp] theorem clearConditions_bytesExpected (s : State) :
    (clearConditions s).bytesExpected = s.bytesExpected := rfl
@[simp] theorem clearConditions_bytesLeft (s : State) : (clearConditions s).bytesLeft = s.bytesLeft := rfl
@[simp] theorem clearConditions_readDataPtr (s : State) :
    (clearConditions s).readDataPtr = s.readDataPtr := rfl
@[simp] theorem clearConditions_cmdInProgress (s : State) :
    (clearConditions s).cmdInProgress = s.cmdInProgress := rfl
@[simp] theorem clearConditions_startClock (s : State) : (clearConditions s).startClock = s.startClock := rfl
@[simp] theorem clearConditions_stepDir (s : State) : (clearConditions s).stepDir = s.stepDir := rfl
@[simp] theorem clearConditions_xferTarget (s : State) : (clearConditions s).xferTarget = s.xferTarget := rfl
@[simp] theorem clearConditions_drives (s : State) : (clearConditions s).drives = s.drives := rfl
@[simp] theorem clearConditions_images (s : State) : (clearConditions s).images = s.images := rfl
@[simp] theorem clearConditions_crc (s : State) : (clearConditions s).crc = s.crc := rfl
@[simp] theorem clearConditions_crcReady (s : State) : (clearConditions s).crcReady = s.crcReady := rfl
@[simp] theorem clearConditions_readers (s : State) : (clearConditions s).readers = s.readers := rfl
@[simp] theorem clearConditions_walk (s : State) : (clearConditions s).walk = s.walk := rfl
@[simp] theorem clearConditions_cfg (s : State) : (clearConditions s).cfg = s.cfg := rfl
@[simp] theorem clearConditions_now (s : State) : (clearConditions s).now = s.now := rfl
@[simp] theorem clearConditions_pending (s : State) : (clearConditions s).pending = s.pending := rfl
@[simp] theorem clearConditions_result (s : State) : (clearConditions s).result = s.result := rfl
@[simp] theorem clearConditions_anomalies (s : State) : (clearConditions s).anomalies = s.anomalies := rfl
@[simp] theorem clearConditions_xferDrive (s : State) : (clearConditions s).xferDrive = s.xferDrive := rfl

/-! ### `reply` -/

@[simp] theorem reply_hardwareBits (r : Result) (s : State) : (reply r s).hardwareBits = s.hardwareBits := rfl
@[simp] theorem reply_driveSelect (r : Result) (s : State) : (reply r s).driveSelect = s.driveSelect := rfl
@[simp] theorem reply_headSelect (r : Result) (s : State) : (reply r s).headSelect = s.headSelect := rfl
@[simp] theorem reply_trackSelect (r : Result) (s : State) : (reply r s).trackSelect = s.trackSelect := rfl
@[simp] theorem reply_trackRegister (r : Result) (s : State) :
    (reply r s).trackRegister = s.trackRegister := rfl
@[simp] theorem reply_sectorRegister (r : Result) (s : State) :
    (reply r s).sectorRegister = s.sectorRegister := rfl
@[simp] theorem reply_dataRegister (r : Result) (s : State) : (reply r s).dataRegister = s.dataRegister := rfl
@[simp] theorem reply_statusRegister (r : Result) (s : State) :
    (reply r s).statusRegister = s.statusRegister := rfl
@[simp] theorem reply_statusTypeI (r : Result) (s : State) : (reply r s).statusTypeI = s.statusTypeI := rfl
@[simp] theorem reply_dataMark (r : Result) (s : State) : (reply r s).dataMark = s.dataMark := rfl
@[simp] theorem reply_dataBuffer (r : Result) (s : State) : (reply r s).dataBuffer = s.dataBuffer := rfl
@[simp] theorem reply_bytesExpected (r : Result) (s : State) :
    (reply r s).bytesExpected = s.bytesExpected := rfl
@[simp] theorem reply_bytesLeft (r : Result) (s : State) : (reply r s).bytesLeft = s.bytesLeft := rfl
@[simp] theorem reply_readDataPtr (r : Result) (s : State) : (reply r s).readDataPtr = s.readDataPtr := rfl
@[simp] theorem reply_cmdInProgress (r : Result) (s : State) :
    (reply r s).cmdInProgress = s.cmdInProgress := rfl
@[simp] theorem reply_startClock (r : Result) (s : State) : (reply r s).startClock = s.startClock := rfl
@[simp] theorem reply_stepDir (r : Result) (s : State) : (reply r s).stepDir = s.stepDir := rfl
@[simp] theorem reply_xferTarget (r : Result) (s : State) : (reply r s).xferTarget = s.xferTarget := rfl
@[simp] theorem reply_drives (r : Result) (s : State) : (reply r s).drives = s.drives := rfl
@[simp] theorem reply_images (r : Result) (s : State) : (reply r s).images = s.images := rfl
@[simp] theorem reply_crc (r : Result) (s : State) : (reply r s).crc = s.crc := rfl
@[simp] theorem reply_crcReady (r : Result) (s : State) : (reply r s).crcReady = s.crcReady := rfl
@[simp] theorem reply_readers (r : Result) (s : State) : (reply r s).readers = s.readers := rfl
@[simp] theorem reply_walk (r : Result) (s : State) : (reply r s).walk = s.walk := rfl
@[simp] theorem reply_cfg (r : Result) (s : State) : (reply r s).cfg = s.cfg := rfl
@[simp] theorem reply_now (r : Result) (s : State) : (reply r s).now = s.now := rfl
@[simp] theorem reply_pending (r : Result) (s : State) : (reply r s).pending = s.pending := rfl
@[simp] theorem reply_result (r : Result) (s : State) : (reply r s).result = r := rfl
@[simp] theorem reply_anomalies (r : Result) (s : State) : (reply r s).anomalies = s.anomalies := rfl
@[simp] theorem reply_xferDrive (r : Result) (s : State) : (reply r s).xferDrive = s.xferDrive := rfl

/-! ### `leaveCrc` -/

@[simp] theorem leaveCrc_hardwareBits (w : Word16) (s : State) :
    (leaveCrc w s).hardwareBits = s.hardwareBits := rfl
@[simp] theorem leaveCrc_driveSelect (w : Word16) (s : State) :
    (leaveCrc w s).driveSelect = s.driveSelect := rfl
@[simp] theorem leaveCrc_headSelect (w : Word16) (s : State) : (leaveCrc w s).headSelect = s.headSelect := rfl
@[simp] theorem leaveCrc_trackSelect (w : Word16) (s : State) :
    (leaveCrc w s).trackSelect = s.trackSelect := rfl
@[simp] theorem leaveCrc_trackRegister (w : Word16) (s : State) :
    (leaveCrc w s).trackRegister = s.trackRegister := rfl
@[simp] theorem leaveCrc_sectorRegister (w : Word16) (s : State) :
    (leaveCrc w s).sectorRegister = s.sectorRegister := rfl
@[simp] theorem leaveCrc_dataRegister (w : Word16) (s : State) :
    (leaveCrc w s).dataRegister = s.dataRegister := rfl
@[simp] theorem leaveCrc_statusRegister (w : Word16) (s : State) :
    (leaveCrc w s).statusRegister = s.statusRegister := rfl
@[simp] theorem leaveCrc_statusTypeI (w : Word16) (s : State) :
    (leaveCrc w s).statusTypeI = s.statusTypeI := rfl
@[simp] theorem leaveCrc_dataMark (w : Word16) (s : State) : (leaveCrc w s).dataMark = s.dataMark := rfl
@[simp] theorem leaveCrc_dataBuffer (w : Word16) (s : State) : (leaveCrc w s).dataBuffer = s.dataBuffer := rfl
@[simp] theorem leaveCrc_bytesExpected (w : Word16) (s : State) :
    (leaveCrc w s).bytesExpected = s.bytesExpected := rfl
@[simp] theorem leaveCrc_bytesLeft (w : Word16) (s : State) : (leaveCrc w s).bytesLeft = s.bytesLeft := rfl
@[simp] theorem leaveCrc_readDataPtr (w : Word16) (s : State) :
    (leaveCrc w s).readDataPtr = s.readDataPtr := rfl
@[simp] theorem leaveCrc_cmdInProgress (w : Word16) (s : State) :
    (leaveCrc w s).cmdInProgress = s.cmdInProgress := rfl
@[simp] theorem leaveCrc_startClock (w : Word16) (s : State) : (leaveCrc w s).startClock = s.startClock := rfl
@[simp] theorem leaveCrc_stepDir (w : Word16) (s : State) : (leaveCrc w s).stepDir = s.stepDir := rfl
@[simp] theorem leaveCrc_xferTarget (w : Word16) (s : State) : (leaveCrc w s).xferTarget = s.xferTarget := rfl
@[simp] theorem leaveCrc_drives (w : Word16) (s : State) : (leaveCrc w s).drives = s.drives := rfl
@[simp] theorem leaveCrc_images (w : Word16) (s : State) : (leaveCrc w s).images = s.images := rfl
@[simp] theorem leaveCrc_crc (w : Word16) (s : State) : (leaveCrc w s).crc = w := rfl
@[simp] theorem leaveCrc_crcReady (w : Word16) (s : State) : (leaveCrc w s).crcReady = true := rfl
@[simp] theorem leaveCrc_readers (w : Word16) (s : State) : (leaveCrc w s).readers = s.readers := rfl
@[simp] theorem leaveCrc_walk (w : Word16) (s : State) : (leaveCrc w s).walk = s.walk := rfl
@[simp] theorem leaveCrc_cfg (w : Word16) (s : State) : (leaveCrc w s).cfg = s.cfg := rfl
@[simp] theorem leaveCrc_now (w : Word16) (s : State) : (leaveCrc w s).now = s.now := rfl
@[simp] theorem leaveCrc_pending (w : Word16) (s : State) : (leaveCrc w s).pending = s.pending := rfl
@[simp] theorem leaveCrc_result (w : Word16) (s : State) : (leaveCrc w s).result = s.result := rfl
@[simp] theorem leaveCrc_anomalies (w : Word16) (s : State) : (leaveCrc w s).anomalies = s.anomalies := rfl
@[simp] theorem leaveCrc_xferDrive (w : Word16) (s : State) : (leaveCrc w s).xferDrive = s.xferDrive := rfl

/-! ### `putReader` -/

@[simp] theorem putReader_hardwareBits (s : State) (h : Nat) (r : BitReader) :
    (s.putReader h r).hardwareBits = s.hardwareBits := rfl
@[simp] theorem putReader_driveSelect (s : State) (h : Nat) (r : BitReader) :
    (s.putReader h r).driveSelect = s.driveSelect := rfl
@[simp] theorem putReader_headSelect (s : State) (h : Nat) (r : BitReader) :
    (s.putReader h r).headSelect = s.headSelect := rfl
@[simp] theorem putReader_trackSelect (s : State) (h : Nat) (r : BitReader) :
    (s.putReader h r).trackSelect = s.trackSelect := rfl
@[simp] theorem putReader_trackRegister (s : State) (h : Nat) (r : BitReader) :
    (s.putReader h r).trackRegister = s.trackRegister := rfl
@[simp] theorem putReader_sectorRegister (s : State) (h : Nat) (r : BitReader) :
    (s.putReader h r).sectorRegister = s.sectorRegister := rfl
@[simp] theorem putReader_dataRegister (s : State) (h : Nat) (r : BitReader) :
    (s.putReader h r).dataRegister = s.dataRegister := rfl
@[simp] theorem putReader_statusRegister (s : State) (h : Nat) (r : BitReader) :
    (s.putReader h r).statusRegister = s.statusRegister := rfl
@[simp] theorem putReader_statusTypeI (s : State) (h : Nat) (r : BitReader) :
    (s.putReader h r).statusTypeI = s.statusTypeI := rfl
@[simp] theorem putReader_dataMark (s : State) (h : Nat) (r : BitReader) :
    (s.putReader h r).dataMark = s.dataMark := rfl
@[simp] theorem putReader_dataBuffer (s : State) (h : Nat) (r : BitReader) :
    (s.putReader h r).dataBuffer = s.dataBuffer := rfl
@[simp] theorem putReader_bytesExpected (s : State) (h : Nat) (r : BitReader) :
    (s.putReader h r).bytesExpected = s.bytesExpected := rfl
@[simp] theorem putReader_bytesLeft (s : State) (h : Nat) (r : BitReader) :
    (s.putReader h r).bytesLeft = s.bytesLeft := rfl
@[simp] theorem putReader_readDataPtr (s : State) (h : Nat) (r : BitReader) :
    (s.putReader h r).readDataPtr = s.readDataPtr := rfl
@[simp] theorem putReader_cmdInProgress (s : State) (h : Nat) (r : BitReader) :
    (s.putReader h r).cmdInProgress = s.cmdInProgress := rfl
@[simp] theorem putReader_startClock (s : State) (h : Nat) (r : BitReader) :
    (s.putReader h r).startClock = s.startClock := rfl
@[simp] theorem putReader_stepDir (s : State) (h : Nat) (r : BitReader) :
    (s.putReader h r).stepDir = s.stepDir := rfl
@[simp] theorem putReader_xferTarget (s : State) (h : Nat) (r : BitReader) :
    (s.putReader h r).xferTarget = s.xferTarget := rfl
@[simp] theorem putReader_drives (s : State) (h : Nat) (r : BitReader) :
    (s.putReader h r).drives = s.drives := rfl
@[simp] theorem putReader_images (s : State) (h : Nat) (r : BitReader) :
    (s.putReader h r).images = s.images := rfl
@[simp] theorem putReader_crc (s : State) (h : Nat) (r : BitReader) : (s.putReader h r).crc = s.crc := rfl
@[simp] theorem putReader_crcReady (s : State) (h : Nat) (r : BitReader) :
    (s.putReader h r).crcReady = s.crcReady := rfl
@[simp] theorem putReader_readers (s : State) (h : Nat) (r : BitReader) :
    (s.putReader h r).readers = s.readers.set h r := rfl
@[simp] theorem putReader_walk (s : State) (h : Nat) (r : BitReader) : (s.putReader h r).walk = s.walk := rfl
@[simp] theorem putReader_cfg (s : State) (h : Nat) (r : BitReader) : (s.putReader h r).cfg = s.cfg := rfl
@[simp] theorem putReader_now (s : State) (h : Nat) (r : BitReader) : (s.putReader h r).now = s.now := rfl
@[simp] theorem putReader_pending (s : State) (h : Nat) (r : BitReader) :
    (s.putReader h r).pending = s.pending := rfl
@[simp] theorem putReader_result (s : State) (h : Nat) (r : BitReader) :
    (s.putReader h r).result = s.result := rfl
@[simp] theorem putReader_anomalies (s : State) (h : Nat) (r : BitReader) :
    (s.putReader h r).anomalies = s.anomalies := rfl
@[simp] theorem putReader_xferDrive (s : State) (h : Nat) (r : BitReader) :
    (s.putReader h r).xferDrive = s.xferDrive := rfl

/-! ### `complete` -/

@[simp] theorem complete_hardwareBits (s : State) : (complete s).hardwareBits = s.hardwareBits := rfl
@[simp] theorem complete_driveSelect (s : State) : (complete s).driveSelect = s.driveSelect := rfl
@[simp] theorem complete_headSelect (s : State) : (complete s).headSelect = s.headSelect := rfl
@[simp] theorem complete_trackSelect (s : State) : (complete s).trackSelect = s.trackSelect := rfl
@[simp] theorem complete_trackRegister (s : State) : (complete s).trackRegister = s.trackRegister := rfl
@[simp] theorem complete_sectorRegister (s : State) : (complete s).sectorRegister = s.sectorRegister := rfl
@[simp] theorem complete_dataRegister (s : State) : (complete s).dataRegister = s.dataRegister := rfl
@[simp] theorem complete_statusRegister (s : State) :
    (complete s).statusRegister = endedStatus s.cfg s.statusRegister := rfl
@[simp] theorem complete_statusTypeI (s : State) : (complete s).statusTypeI = s.statusTypeI := rfl
@[simp] theorem complete_dataMark (s : State) : (complete s).dataMark = s.dataMark := rfl
@[simp] theorem complete_dataBuffer (s : State) : (complete s).dataBuffer = s.dataBuffer := rfl
@[simp] theorem complete_bytesExpected (s : State) : (complete s).bytesExpected = s.bytesExpected := rfl
@[simp] theorem complete_bytesLeft (s : State) : (complete s).bytesLeft = s.bytesLeft := rfl
@[simp] theorem complete_readDataPtr (s : State) : (complete s).readDataPtr = s.readDataPtr := rfl
@[simp] theorem complete_cmdInProgress (s : State) : (complete s).cmdInProgress = .none := rfl
@[simp] theorem complete_startClock (s : State) : (complete s).startClock = s.startClock := rfl
@[simp] theorem complete_stepDir (s : State) : (complete s).stepDir = s.stepDir := rfl
@[simp] theorem complete_xferTarget (s : State) : (complete s).xferTarget = none := rfl
@[simp] theorem complete_drives (s : State) : (complete s).drives = s.drives := rfl
@[simp] theorem complete_images (s : State) : (complete s).images = s.images := rfl
@[simp] theorem complete_crc (s : State) : (complete s).crc = s.crc := rfl
@[simp] theorem complete_crcReady (s : State) : (complete s).crcReady = s.crcReady := rfl
@[simp] theorem complete_readers (s : State) : (complete s).readers = s.readers := rfl
@[simp] theorem complete_walk (s : State) : (complete s).walk = s.walk := rfl
@[simp] theorem complete_cfg (s : State) : (complete s).cfg = s.cfg := rfl
@[simp] theorem complete_now (s : State) : (complete s).now = s.now := rfl
@[simp] theorem complete_pending (s : State) : (complete s).pending = s.pending := rfl
@[simp] theorem complete_result (s : State) : (complete s).result = s.result := rfl
@[simp] theorem complete_anomalies (s : State) : (complete s).anomalies = s.anomalies := rfl
@[simp] theorem complete_xferDrive (s : State) : (complete s).xferDrive = s.xferDrive := rfl

/-! ### `putTrack` -/

@[simp] theorem putTrack_hardwareBits (s : State) (r : TrackRef) (t : Track) :
    (s.putTrack r t).hardwareBits = s.hardwareBits := by unfold State.putTrack; split <;> rfl
@[simp] theorem putTrack_driveSelect (s : State) (r : TrackRef) (t : Track) :
    (s.putTrack r t).driveSelect = s.driveSelect := by unfold State.putTrack; split <;> rfl
@[simp] theorem putTrack_headSelect (s : State) (r : TrackRef) (t : Track) :
    (s.putTrack r t).headSelect = s.headSelect := by unfold State.putTrack; split <;> rfl
@[simp] theorem putTrack_trackSelect (s : State) (r : TrackRef) (t : Track) :
    (s.putTrack r t).trackSelect = s.trackSelect := by unfold State.putTrack; split <;> rfl
@[simp] theorem putTrack_trackRegister (s : State) (r : TrackRef) (t : Track) :
    (s.putTrack r t).trackRegister = s.trackRegister := by unfold State.putTrack; split <;> rfl
@[simp] theorem putTrack_sectorRegister (s : State) (r : TrackRef) (t : Track) :
    (s.putTrack r t).sectorRegister = s.sectorRegister := by unfold State.putTrack; split <;> rfl
@[simp] theorem putTrack_dataRegister (s : State) (r : TrackRef) (t : Track) :
    (s.putTrack r t).dataRegister = s.dataRegister := by unfold State.putTrack; split <;> rfl
@[simp] theorem putTrack_statusRegister (s : State) (r : TrackRef) (t : Track) :
    (s.putTrack r t).statusRegister = s.statusRegister := by unfold State.putTrack; split <;> rfl
@[simp] theorem putTrack_statusTypeI (s : State) (r : TrackRef) (t : Track) :
    (s.putTrack r t).statusTypeI = s.statusTypeI := by unfold State.putTrack; split <;> rfl
@[simp] theorem putTrack_dataMark (s : State) (r : TrackRef) (t : Track) :
    (s.putTrack r t).dataMark = s.dataMark := by unfold State.putTrack; split <;> rfl
@[simp] theorem putTrack_dataBuffer (s : State) (r : TrackRef) (t : Track) :
    (s.putTrack r t).dataBuffer = s.dataBuffer := by unfold State.putTrack; split <;> rfl
@[simp] theorem putTrack_bytesExpected (s : State) (r : TrackRef) (t : Track) :
    (s.putTrack r t).bytesExpected = s.bytesExpected := by unfold State.putTrack; split <;> rfl
@[simp] theorem putTrack_bytesLeft (s : State) (r : TrackRef) (t : Track) :
    (s.putTrack r t).bytesLeft = s.bytesLeft := by unfold State.putTrack; split <;> rfl
@[simp] theorem putTrack_readDataPtr (s : State) (r : TrackRef) (t : Track) :
    (s.putTrack r t).readDataPtr = s.readDataPtr := by unfold State.putTrack; split <;> rfl
@[simp] theorem putTrack_cmdInProgress (s : State) (r : TrackRef) (t : Track) :
    (s.putTrack r t).cmdInProgress = s.cmdInProgress := by unfold State.putTrack; split <;> rfl
@[simp] theorem putTrack_startClock (s : State) (r : TrackRef) (t : Track) :
    (s.putTrack r t).startClock = s.startClock := by unfold State.putTrack; split <;> rfl
@[simp] theorem putTrack_stepDir (s : State) (r : TrackRef) (t : Track) :
    (s.putTrack r t).stepDir = s.stepDir := by unfold State.putTrack; split <;> rfl
@[simp] theorem putTrack_xferTarget (s : State) (r : TrackRef) (t : Track) :
    (s.putTrack r t).xferTarget = s.xferTarget := by unfold State.putTrack; split <;> rfl
@[simp] theorem putTrack_drives (s : State) (r : TrackRef) (t : Track) :
    (s.putTrack r t).drives = s.drives := by unfold State.putTrack; split <;> rfl
@[simp] theorem putTrack_crc (s : State) (r : TrackRef) (t : Track) :
    (s.putTrack r t).crc = s.crc := by unfold State.putTrack; split <;> rfl
@[simp] theorem putTrack_crcReady (s : State) (r : TrackRef) (t : Track) :
    (s.putTrack r t).crcReady = s.crcReady := by unfold State.putTrack; split <;> rfl
@[simp] theorem putTrack_readers (s : State) (r : TrackRef) (t : Track) :
    (s.putTrack r t).readers = s.readers := by unfold State.putTrack; split <;> rfl
@[simp] theorem putTrack_walk (s : State) (r : TrackRef) (t : Track) :
    (s.putTrack r t).walk = s.walk := by unfold State.putTrack; split <;> rfl
@[simp] theorem putTrack_cfg (s : State) (r : TrackRef) (t : Track) :
    (s.putTrack r t).cfg = s.cfg := by unfold State.putTrack; split <;> rfl
@[simp] theorem putTrack_now (s : State) (r : TrackRef) (t : Track) :
    (s.putTrack r t).now = s.now := by unfold State.putTrack; split <;> rfl
@[simp] theorem putTrack_pending (s : State) (r : TrackRef) (t : Track) :
    (s.putTrack r t).pending = s.pending := by unfold State.putTrack; split <;> rfl
@[simp] theorem putTrack_result (s : State) (r : TrackRef) (t : Track) :
    (s.putTrack r t).result = s.result := by unfold State.putTrack; split <;> rfl
@[simp] theorem putTrack_anomalies (s : State) (r : TrackRef) (t : Track) :
    (s.putTrack r t).anomalies = s.anomalies := by unfold State.putTrack; split <;> rfl
@[simp] theorem putTrack_xferDrive (s : State) (r : TrackRef) (t : Track) :
    (s.putTrack r t).xferDrive = s.xferDrive := by unfold State.putTrack; split <;> rfl

/-- Putting a track changes the images and nothing else. -/
theorem putTrack_eq (s : State) (r : TrackRef) (t : Track) :
    s.putTrack r t = { s with images := (s.putTrack r t).images } := by unfold State.putTrack; split <;> rfl

/-! ### `leaveCrc?` -/

@[simp] theorem leaveCrc?_hardwareBits (w : Option Word16) (s : State) : (leaveCrc? w s).hardwareBits = s.hardwareBits := by
  cases w <;> rfl
@[simp] theorem leaveCrc?_driveSelect (w : Option Word16) (s : State) : (leaveCrc? w s).driveSelect = s.driveSelect := by
  cases w <;> rfl
@[simp] theorem leaveCrc?_headSelect (w : Option Word16) (s : State) : (leaveCrc? w s).headSelect = s.headSelect := by
  cases w <;> rfl
@[simp] theorem leaveCrc?_trackSelect (w : Option Word16) (s : State) : (leaveCrc? w s).trackSelect = s.trackSelect := by
  cases w <;> rfl
@[simp] theorem leaveCrc?_trackRegister (w : Option Word16) (s : State) : (leaveCrc? w s).trackRegister = s.trackRegister := by
  cases w <;> rfl
@[simp] theorem leaveCrc?_sectorRegister (w : Option Word16) (s : State) : (leaveCrc? w s).sectorRegister = s.sectorRegister := by
  cases w <;> rfl
@[simp] theorem leaveCrc?_dataRegister (w : Option Word16) (s : State) : (leaveCrc? w s).dataRegister = s.dataRegister := by
  cases w <;> rfl
@[simp] theorem leaveCrc?_statusRegister (w : Option Word16) (s : State) : (leaveCrc? w s).statusRegister = s.statusRegister := by
  cases w <;> rfl
@[simp] theorem leaveCrc?_statusTypeI (w : Option Word16) (s : State) : (leaveCrc? w s).statusTypeI = s.statusTypeI := by
  cases w <;> rfl
@[simp] theorem leaveCrc?_dataMark (w : Option Word16) (s : State) : (leaveCrc? w s).dataMark = s.dataMark := by
  cases w <;> rfl
@[simp] theorem leaveCrc?_dataBuffer (w : Option Word16) (s : State) : (leaveCrc? w s).dataBuffer = s.dataBuffer := by
  cases w <;> rfl
@[simp] theorem leaveCrc?_bytesExpected (w : Option Word16) (s : State) : (leaveCrc? w s).bytesExpected = s.bytesExpected := by
  cases w <;> rfl
@[simp] theorem leaveCrc?_bytesLeft (w : Option Word16) (s : State) : (leaveCrc? w s).bytesLeft = s.bytesLeft := by
  cases w <;> rfl
@[simp] theorem leaveCrc?_readDataPtr (w : Option Word16) (s : State) : (leaveCrc? w s).readDataPtr = s.readDataPtr := by
  cases w <;> rfl
@[simp] theorem leaveCrc?_cmdInProgress (w : Option Word16) (s : State) : (leaveCrc? w s).cmdInProgress = s.cmdInProgress := by
  cases w <;> rfl
@[simp] theorem leaveCrc?_startClock (w : Option Word16) (s : State) : (leaveCrc? w s).startClock = s.startClock := by
  cases w <;> rfl
@[simp] theorem leaveCrc?_stepDir (w : Option Word16) (s : State) : (leaveCrc? w s).stepDir = s.stepDir := by
  cases w <;> rfl
@[simp] theorem leaveCrc?_xferTarget (w : Option Word16) (s : State) : (leaveCrc? w s).xferTarget = s.xferTarget := by
  cases w <;> rfl
@[simp] theorem leaveCrc?_drives (w : Option Word16) (s : State) : (leaveCrc? w s).drives = s.drives := by
  cases w <;> rfl
@[simp] theorem leaveCrc?_images (w : Option Word16) (s : State) : (leaveCrc? w s).images = s.images := by
  cases w <;> rfl
@[simp] theorem leaveCrc?_readers (w : Option Word16) (s : State) : (leaveCrc? w s).readers = s.readers := by
  cases w <;> rfl
@[simp] theorem leaveCrc?_walk (w : Option Word16) (s : State) : (leaveCrc? w s).walk = s.walk := by
  cases w <;> rfl
@[simp] theorem leaveCrc?_cfg (w : Option Word16) (s : State) : (leaveCrc? w s).cfg = s.cfg := by
  cases w <;> rfl
@[simp] theorem leaveCrc?_now (w : Option Word16) (s : State) : (leaveCrc? w s).now = s.now := by
  cases w <;> rfl
@[simp] theorem leaveCrc?_pending (w : Option Word16) (s : State) : (leaveCrc? w s).pending = s.pending := by
  cases w <;> rfl
@[simp] theorem leaveCrc?_result (w : Option Word16) (s : State) : (leaveCrc? w s).result = s.result := by
  cases w <;> rfl
@[simp] theorem leaveCrc?_anomalies (w : Option Word16) (s : State) : (leaveCrc? w s).anomalies = s.anomalies := by
  cases w <;> rfl
@[simp] theorem leaveCrc?_xferDrive (w : Option Word16) (s : State) : (leaveCrc? w s).xferDrive = s.xferDrive := by
  cases w <;> rfl

end Sys2Proof.Machine
end

