-- ==== Sys2Proof/Laws/Ops.lean ====
section
/-! SUPPORT. For each shared operation, once, everything it can do when it answers a next state. -/

namespace Sys2Proof.Machine

/-! ### Sequencing -/

@[simp] theorem andThen_next (s : State) (f : State → Out) : andThen (.next s) f = f s := rfl

@[simp] theorem andThen_refused (r : Refusal) (f : State → Out) : andThen (.refused r) f = .refused r := rfl

/-- A sequence answers exactly where both parts do. -/
theorem andThen_eq_next {o : Out} {f : State → Out} {s' : State} :
    andThen o f = .next s' ↔ ∃ s, o = .next s ∧ f s = .next s' := by
  cases o with
  | next s => simp [andThen]
  | fault r => cases r
  | refused r => simp [andThen]

@[simp] theorem orRefuse_some {α : Type} (r : Refusal) (a : α) (f : α → Out) :
    orRefuse r (some a) f = f a := rfl

@[simp] theorem orRefuse_none {α : Type} (r : Refusal) (f : α → Out) :
    orRefuse r none f = .refused r := rfl

/-- Going on with an optional value answers only where there is one. -/
theorem orRefuse_eq_next {α : Type} {r : Refusal} {x : Option α} {f : α → Out} {s' : State} :
    orRefuse r x f = .next s' ↔ ∃ a, x = some a ∧ f a = .next s' := by
  cases x <;> simp [orRefuse]

/-! ### Operands -/

theorem withTrack_eq_next {r : TrackRef} {s : State} {f : Track → Out} {s' : State} :
    withTrack r s f = .next s' ↔ ∃ t, s.track? r = some t ∧ f t = .next s' := orRefuse_eq_next

theorem withView_eq_next {r : TrackRef} {v : View} {s : State} {f : Track → Out} {s' : State} :
    withView r v s f = .next s' ↔ ∃ t, s.track? r = some t ∧ v ∈ t.sector ∧ f t = .next s' := by
  unfold withView
  rw [withTrack_eq_next]
  constructor
  · rintro ⟨t, ht, h⟩
    by_cases hv : v ∈ t.sector
    · exact ⟨t, ht, hv, by simpa [hv] using h⟩
    · simp [hv] at h
  · rintro ⟨t, ht, hv, h⟩
    exact ⟨t, ht, by simpa [hv] using h⟩

theorem withDensity_eq_next {fmt : TrackFormat} {f : Density → Out} {s' : State} :
    withDensity fmt f = .next s' ↔ ∃ d, fmt.density? = some d ∧ f d = .next s' := orRefuse_eq_next

theorem withReader_eq_next {h : Nat} {s : State} {f : BitReader → Out} {s' : State} :
    Machine.withReader h s f = .next s' ↔ ∃ r, s.readers[h]? = some r ∧ f r = .next s' := orRefuse_eq_next

/-! ### Fields and walks -/

/-- A CRC check changes the result and the CRC register. -/
theorem checkView_eq_next {r : TrackRef} {v : View} {s s' : State}
    {check : Params → Density → List Byte → View → Option (Bool × Word16)} :
    checkView r v s check = .next s' ↔
      ∃ t d a, s.track? r = some t ∧ v ∈ t.sector ∧ t.format.density? = some d ∧
        check s.cfg d t.data v = some a ∧ s' = reply (.truth a.1) (leaveCrc a.2 s) := by
  simp only [checkView, withView_eq_next, withDensity_eq_next, orRefuse_eq_next, Host.Outcome.next.injEq]
  constructor
  · rintro ⟨t, h1, h2, d, h3, a, h4, h5⟩
    exact ⟨t, d, a, h1, h2, h3, h4, h5.symm⟩
  · rintro ⟨t, d, a, h1, h2, h3, h4, h5⟩
    exact ⟨t, h1, h2, d, h3, a, h4, h5.symm⟩

/-- A sector `Write` changes one track and the CRC register. -/
theorem writeSectorAt_eq_next {r : TrackRef} {v : View} {mark : Byte} {buf : List Byte} {s s' : State} :
    writeSectorAt r v mark buf s = .next s' ↔
      ∃ t d a, s.track? r = some t ∧ v ∈ t.sector ∧ t.format.density? = some d ∧
        sectorWrite s.cfg d t v mark buf = some a ∧ s' = leaveCrc? a.2 (s.putTrack r a.1) := by
  simp only [writeSectorAt, withView_eq_next, withDensity_eq_next, orRefuse_eq_next, Host.Outcome.next.injEq]
  constructor
  · rintro ⟨t, h1, h2, d, h3, a, h4, h5⟩
    exact ⟨t, d, a, h1, h2, h3, h4, h5.symm⟩
  · rintro ⟨t, d, a, h1, h2, h3, h4, h5⟩
    exact ⟨t, h1, h2, d, h3, a, h4, h5.symm⟩

/-- A track `Write` replaces one track, leaves the CRC register and closes the walk. -/
theorem writeTrackAt_eq_next {r : TrackRef} {d : Density} {raw : List Byte} {s s' : State} :
    writeTrackAt r d raw s = .next s' ↔
      (∃ t, s.track? r = some t) ∧
        s' = leaveCrc (walkStream s.cfg d raw).2
          { s.putTrack r (walkTrack s.cfg (walkStream s.cfg d raw).1) with walk := none } := by
  simp only [writeTrackAt, withTrack_eq_next, Host.Outcome.next.injEq]
  constructor
  · rintro ⟨t, h1, h2⟩
    exact ⟨⟨t, h1⟩, h2.symm⟩
  · rintro ⟨⟨t, h1⟩, h2⟩
    exact ⟨t, h1, h2.symm⟩

/-- A token changes the walk, the CRC register and the result. -/
theorem onWalk_eq_next {f : WalkRun → WalkRun} {s s' : State} :
    onWalk f s = .next s' ↔
      s' = reply .nothing (leaveCrc (f (walkNow s)).2 { s with walk := some (f (walkNow s)).1 }) := by
  simp only [onWalk, Host.Outcome.next.injEq, eq_comm]

/-- A step of the CRC register always answers, and changes the register and the result. -/
theorem crcStep_eq_next {f : Word16 → Word16} {s s' : State} :
    crcStep f s = .next s' ↔ s' = reply .nothing { s with crc := f s.crc } := by
  simp only [crcStep, Host.Outcome.next.injEq, eq_comm]

/-- `CrcValue` hands an initialised register over and changes nothing else. -/
theorem crcValue_eq_next {s s' : State} :
    crcValue s = .next s' ↔ s.crcReady = true ∧ s' = reply (.word s.crc) s := by
  unfold crcValue
  split
  · rename_i h
    simp only [Host.Outcome.next.injEq, h, true_and]
    exact ⟨Eq.symm, Eq.symm⟩
  · rename_i h
    simp [h]

/-! ### Status masks -/

/-- A bit of a mask of the layout is the bit at its position. -/
theorem Params.mask_getLsbD (p : Params) (b : StatusBit) (i : Nat) :
    (p.mask b).getLsbD i = decide (i = (p.layout.position b).val) := by
  have hlt : (p.layout.position b).val < 8 := (p.layout.position b).isLt
  simp only [Params.mask, BitVec.getLsbD_twoPow]
  by_cases h : i = (p.layout.position b).val
  · simp [h, hlt]
  · have h' : ¬(p.layout.position b).val = i := fun e => h e.symm
    simp [h, h']

/-- Testing a mask of the layout tests the bit at its position. -/
theorem anySet_mask (p : Params) (b : StatusBit) (status : Byte) :
    anySet status (p.mask b) = status.getLsbD (p.layout.position b).val := by
  have hlt : (p.layout.position b).val < 8 := (p.layout.position b).isLt
  rw [Bool.eq_iff_iff]
  constructor
  · intro h
    simp only [anySet, bne_iff_ne, ne_eq] at h
    by_contra hn
    apply h
    apply BitVec.eq_of_getLsbD_eq
    intro i _
    simp only [BitVec.getLsbD_and, Params.mask_getLsbD, BitVec.getLsbD_zero]
    by_cases hi : i = (p.layout.position b).val
    · subst hi
      simpa using hn
    · simp [hi]
  · intro h
    simp only [anySet, bne_iff_ne, ne_eq]
    intro hz
    have hb := congrArg (fun w => w.getLsbD (p.layout.position b).val) hz
    simp only [BitVec.getLsbD_and, Params.mask_getLsbD, BitVec.getLsbD_zero, h] at hb
    simp at hb

/-! ### The bit-stream reader -/

/-- `next()` on a reader whose bits are inside its buffer (41_bitstream.md R112). -/
theorem BitReader.next?_inBuffer {r : BitReader} (h : r.totalBits ≤ 8 * r.buf.length) :
    r.next? =
      if r.totalBits < r.bitOffset + r.stride then some (none, r)
      else some (some (r.extract (r.buf.getD (r.bitOffset / 8) 0#8)),
        { r with bitOffset := r.bitOffset + r.stride }) := by
  unfold BitReader.next? BitReader.atEnd
  by_cases he : r.totalBits < r.bitOffset + r.stride
  · simp [he]
  · have hs : 1 ≤ r.stride := by unfold BitReader.stride; split <;> omega
    have hb : r.bitOffset / 8 < r.buf.length := by omega
    simp [he, BitReader.curByte, List.getElem?_eq_getElem hb]

/-! ### The controller -/

/-- The common part of a command write, as one update (47_controller_interface.md R233). -/
theorem commandWrite_eq (typeI : Bool) (s : State) :
    commandWrite typeI s = { s with
      cmdInProgress := .none
      xferTarget := none
      bytesLeft := 0
      startClock := s.now
      statusRegister := 0x00#8
      statusTypeI := typeI
      anomalies := if s.drqSet then s.anomalies + 1 else s.anomalies
      result := .nothing } := by
  have hd : (reply .nothing s).drqSet = s.drqSet := rfl
  unfold commandWrite drqAnomaly
  rw [hd]
  cases s.drqSet <;> rfl

/-- Force Interrupt, as one update (48_controller_type1_type4.md R262). -/
theorem forceInterrupt_eq (s : State) :
    forceInterrupt s = { s with
      statusRegister := clearBits
        (if s.drqSet then clearBits s.statusRegister (s.cfg.mask .drq) else s.statusRegister)
        (s.cfg.mask .busy)
      cmdInProgress := .none
      xferTarget := none
      anomalies := if s.drqSet then s.anomalies + 1 else s.anomalies
      result := .nothing } := by
  have hd : (reply .nothing s).drqSet = s.drqSet := rfl
  unfold forceInterrupt drqAnomaly
  rw [hd]
  cases s.drqSet <;> rfl

/-- The end of a transfer, as one update (49_controller_type2_type3.md R283). -/
theorem complete_eq (s : State) :
    complete s = { s with
      statusRegister := endedStatus s.cfg s.statusRegister, cmdInProgress := .none, xferTarget := none } := rfl

/-- A staged transfer, as one update (47_controller_interface.md R234). -/
theorem stage_eq (kind : Transfer) (buf : List Byte) (s : State) :
    stage kind buf s = { s with
      dataBuffer := buf
      bytesExpected := buf.length
      bytesLeft := buf.length
      statusRegister := stagedStatus s.cfg s.statusRegister
      cmdInProgress := kind
      xferDrive := s.driveSelect } := rfl

/-- A CRU write, as one update (47_controller_interface.md R230). -/
theorem cruWrite_eq (n : Nat) (v : Bool) (s : State) :
    cruWrite n v s = { s with
      hardwareBits := latchBit s.hardwareBits n v
      driveSelect := driveOf (latchBit s.hardwareBits n v)
      headSelect := headOf (latchBit s.hardwareBits n v)
      result := .nothing } := rfl

/-- A commit is the sector or track write of the captured target. -/
theorem commit_eq_next {n : Nat} {s s' : State} :
    commit n s = .next s' ↔
      (∃ r v, s.cmdInProgress = .writeSector ∧ s.xferTarget = some { track := r, sector := some v } ∧
        writeSectorAt r v s.dataMark s.dataBuffer s = .next s') ∨
      (∃ r, s.cmdInProgress = .writeTrack ∧ s.xferTarget = some { track := r, sector := none } ∧
        writeTrackAt r .fm (s.dataBuffer.take n) s = .next s') := by
  unfold commit
  constructor
  · intro h
    split at h
    · rename_i r v hc ht
      exact .inl ⟨r, v, hc, ht, h⟩
    · rename_i r hc ht
      exact .inr ⟨r, hc, ht, h⟩
    · cases h
  · rintro (⟨r, v, hc, ht, h⟩ | ⟨r, hc, ht, h⟩)
    · simp [hc, ht, h]
    · simp [hc, ht, h]

/-- The prelude of a register access does nothing, ends a Read Track, or commits and ends a Write Track
(60_exceptions.md R313). -/
theorem checkRevolution_eq_next {s s' : State} :
    checkRevolution s = .next s' ↔
      (s.timedOut = false ∧ s' = s) ∨
      (s.timedOut = true ∧ s.cmdInProgress = .readTrack ∧ s' = complete s) ∨
      (s.timedOut = true ∧ s.cmdInProgress = .writeTrack ∧
        ∃ s1, commit (s.bytesExpected - s.bytesLeft) s = .next s1 ∧ s' = complete s1) := by
  unfold checkRevolution
  by_cases ht : s.timedOut = true
  · have hc : s.cmdInProgress = .readTrack ∨ s.cmdInProgress = .writeTrack := by
      unfold State.timedOut at ht
      cases h : s.cmdInProgress <;> simp [h, Transfer.timed] at ht ⊢
    rcases hc with hc | hc
    · simp [ht, hc, eq_comm]
    · simp only [ht, hc, if_true, andThen_eq_next, Host.Outcome.next.injEq]
      simp [eq_comm]
  · simp [ht, eq_comm]

/-- With no time-out pending an access is its own rule. -/
@[simp] theorem access_of_not_timedOut {s : State} (h : s.timedOut = false) (body : State → Out) :
    access body s = body s := by
  simp [access, checkRevolution, h]

/-- A register access runs its own rule on the state the prelude leaves. -/
theorem access_eq_next {body : State → Out} {s s' : State} :
    access body s = .next s' ↔ ∃ s1, checkRevolution s = .next s1 ∧ body s1 = .next s' := andThen_eq_next

/-- A transfer read delivers the next byte and, with the last one, completes (49 R282). -/
theorem transferRead_eq_next {s s' : State} :
    transferRead s = .next s' ↔
      ∃ l, s.dataBuffer[s.readDataPtr]? = some l ∧
        s' = replyBus l (if s.bytesLeft - 1 = 0 then
          complete { s with
            dataRegister := l, readDataPtr := s.readDataPtr + 1, bytesLeft := s.bytesLeft - 1 }
          else { s with
            dataRegister := l, readDataPtr := s.readDataPtr + 1, bytesLeft := s.bytesLeft - 1 }) := by
  simp only [transferRead, orRefuse_eq_next, Host.Outcome.next.injEq]
  constructor
  · rintro ⟨l, h1, h2⟩
    exact ⟨l, h1, h2.symm⟩
  · rintro ⟨l, h1, h2⟩
    exact ⟨l, h1, h2.symm⟩

/-- A transfer write stores the byte and, with the last one, commits and completes (49 R284). -/
theorem transferWrite_eq_next {b : Byte} {s s' : State} :
    transferWrite b s = .next s' ↔
      s.bytesExpected - s.bytesLeft < s.dataBuffer.length ∧
      ((s.bytesLeft - 1 ≠ 0 ∧ s' = { s with
          dataBuffer := s.dataBuffer.set (s.bytesExpected - s.bytesLeft) b
          bytesLeft := s.bytesLeft - 1 }) ∨
        (s.bytesLeft - 1 = 0 ∧ ∃ s1, commit s.bytesExpected { s with
            dataBuffer := s.dataBuffer.set (s.bytesExpected - s.bytesLeft) b
            bytesLeft := s.bytesLeft - 1 } = .next s1 ∧ s' = complete s1)) := by
  unfold transferWrite
  by_cases hl : s.bytesExpected - s.bytesLeft < s.dataBuffer.length
  · by_cases hz : s.bytesLeft - 1 = 0
    · simp only [hl, hz, if_true, andThen_eq_next, Host.Outcome.next.injEq]
      simp only [true_and, not_true_eq_false, ne_eq, false_and, false_or]
      simp only [eq_comm]
    · simp only [hl, hz, if_true, if_false, Host.Outcome.next.injEq]
      simp only [true_and, ne_eq, false_and, or_false]
      exact ⟨fun h => ⟨hz, h.symm⟩, fun h => h.2.symm⟩
  · simp [hl]

/-- A Type I command moves the head, may verify, and assembles its status (48 R250). -/
theorem typeOne_eq_next {v : Bool} {move : State → State} {s s' : State} :
    typeOne v move s = .next s' ↔
      (v = false ∧ s' = assembleStatus (move (commandWrite true s))) ∨
      (v = true ∧ ∃ r, verifyTrack (move (commandWrite true s)) = some r ∧
        s' = assembleStatus (raiseVerify r (leaveCrc? r.crc (move (commandWrite true s))))) := by
  cases v with
  | false => simp [typeOne, verify, eq_comm]
  | true =>
    simp only [typeOne, verify, if_true, andThen_eq_next, orRefuse_eq_next, Host.Outcome.next.injEq]
    constructor
    · rintro ⟨s1, ⟨r, h1, h2⟩, h3⟩
      exact .inr ⟨trivial, r, h1, by rw [h2, h3]⟩
    · rintro (⟨h, -⟩ | ⟨-, r, h1, h2⟩)
      · cases h
      · exact ⟨_, ⟨r, h1, rfl⟩, h2.symm⟩

end Sys2Proof.Machine
end

