-- ==== Sys2Proof/Laws/Memory.lean ====
section
/-! SUPPORT. The memory of the block: reading and writing bytes of a track, reading and replacing tracks of
the inserted images, and that every memory operation keeps `Memory.wf`. -/

namespace Sys2Proof.Machine

/-! ### The track byte space -/

theorem memRead_eq_some {data l : List Byte} {a n : Nat} :
    memRead data a n = some l ↔ a + n ≤ data.length ∧ l = (data.drop a).take n := by
  unfold memRead
  split <;> simp_all [eq_comm]

theorem memRead_length {data l : List Byte} {a n : Nat} (h : memRead data a n = some l) :
    l.length = n := by
  obtain ⟨h1, rfl⟩ := memRead_eq_some.1 h
  simp; omega

theorem memWrite_eq_some {data v data' : List Byte} {a : Nat} :
    memWrite data a v = some data' ↔
      a + v.length ≤ data.length ∧ data' = data.take a ++ v ++ data.drop (a + v.length) := by
  unfold memWrite
  split <;> simp_all [eq_comm]

/-- A write changes no length (20_memory.md R41). -/
theorem memWrite_length {data v data' : List Byte} {a : Nat} (h : memWrite data a v = some data') :
    data'.length = data.length := by
  obtain ⟨h1, rfl⟩ := memWrite_eq_some.1 h
  simp; omega

/-- A write leaves every byte outside its range. -/
theorem memWrite_get_outside {data v data' : List Byte} {a i : Nat} (h : memWrite data a v = some data')
    (hi : i < a ∨ a + v.length ≤ i) : data'[i]? = data[i]? := by
  obtain ⟨h1, rfl⟩ := memWrite_eq_some.1 h
  rcases hi with hi | hi
  · rw [List.append_assoc, List.getElem?_append_left (by simp; omega), List.getElem?_take_of_lt hi]
  · rw [List.getElem?_append_right (by simp; omega), List.getElem?_drop]
    congr 1
    simp
    omega

/-- A write puts its bytes where it says. -/
theorem memWrite_get_inside {data v data' : List Byte} {a i : Nat} (h : memWrite data a v = some data')
    (hi : i < v.length) : data'[a + i]? = v[i]? := by
  obtain ⟨h1, rfl⟩ := memWrite_eq_some.1 h
  have hl : (data.take a).length = a := by simp; omega
  rw [List.append_assoc, List.getElem?_append_right (by omega), hl, Nat.add_sub_cancel_left,
    List.getElem?_append_left hi]

/-- Reading what was written. -/
theorem memRead_memWrite_same {data v data' : List Byte} {a : Nat} (h : memWrite data a v = some data') :
    memRead data' a v.length = some v := by
  rw [memRead_eq_some]
  refine ⟨by rw [memWrite_length h]; exact (memWrite_eq_some.1 h).1, ?_⟩
  apply List.ext_getElem?
  intro i
  by_cases hi : i < v.length
  · rw [List.getElem?_take_of_lt hi, List.getElem?_drop, memWrite_get_inside h hi]
  · rw [List.getElem?_eq_none (by omega), List.getElem?_eq_none (by simp; omega)]

/-- Reading elsewhere than was written. -/
theorem memRead_memWrite_disjoint {data v data' : List Byte} {a b n : Nat}
    (h : memWrite data a v = some data') (hd : b + n ≤ a ∨ a + v.length ≤ b) :
    memRead data' b n = memRead data b n := by
  have hl := memWrite_length h
  unfold memRead
  rw [hl]
  split
  · congr 1
    apply List.ext_getElem?
    intro i
    by_cases hi : i < n
    · rw [List.getElem?_take_of_lt hi, List.getElem?_take_of_lt hi, List.getElem?_drop, List.getElem?_drop,
        memWrite_get_outside h (by omega)]
    · rw [List.getElem?_eq_none (by simp; omega), List.getElem?_eq_none (by simp; omega)]
  · rfl

/-! ### Drives and tracks -/

@[simp] theorem Drives.get_set_same (d : Drives) (k : Nat) (x : Option Nat) (h1 : 1 ≤ k)
    (h2 : k ≤ 3) : (d.set k x).get k = x := by
  have : k = 1 ∨ k = 2 ∨ k = 3 := by omega
  rcases this with rfl | rfl | rfl <;> rfl

theorem Drives.get_set_other (d : Drives) {k j : Nat} (x : Option Nat) (h : j ≠ k) :
    (d.set k x).get j = d.get j := by
  unfold Drives.set
  split <;> simp only [Drives.get] <;> split <;> first | rfl | omega

/-- A drive that holds an image is one of the three. -/
theorem Drives.get_some_range {d : Drives} {k h : Nat} (hk : d.get k = some h) : 1 ≤ k ∧ k ≤ 3 := by
  unfold Drives.get at hk
  split at hk <;> first | omega | cases hk

/-- Two places inside the geometry are two indices. -/
theorem DiskImage.trackIndex_inj (img : DiskImage) {c h c' h' : Nat} (hh : h < img.heads)
    (hh' : h' < img.heads) (he : img.trackIndex c h = img.trackIndex c' h') : c = c' ∧ h = h' := by
  unfold DiskImage.trackIndex at he
  have h1 : (c * img.heads + h) / img.heads = c := by
    rw [Nat.mul_comm, Nat.mul_add_div (by omega), Nat.div_eq_of_lt hh, Nat.add_zero]
  have h2 : (c' * img.heads + h') / img.heads = c' := by
    rw [Nat.mul_comm, Nat.mul_add_div (by omega), Nat.div_eq_of_lt hh', Nat.add_zero]
  have hc : c = c' := by rw [← h1, he, h2]
  subst hc
  exact ⟨rfl, by omega⟩

theorem DiskImage.getTrack_putTrack_same {img : DiskImage} {c h : Nat} {t : Track} (t' : Track)
    (ht : img.getTrack c h = some t) : (img.putTrack c h t').getTrack c h = some t' := by
  unfold DiskImage.getTrack at ht ⊢
  split at ht
  · rename_i hg
    have hl : img.trackIndex c h < img.tracks.length := by
      rw [List.getElem?_eq_some_iff] at ht; exact ht.1
    simp only [DiskImage.putTrack, hg, and_self, if_true]
    exact List.getElem?_set_self hl
  · cases ht

theorem DiskImage.getTrack_putTrack_other (img : DiskImage) {c h c' h' : Nat} (t : Track)
    (hin : c < img.cylinders ∧ h < img.heads) (hne : ¬(c' = c ∧ h' = h)) :
    (img.putTrack c h t).getTrack c' h' = img.getTrack c' h' := by
  unfold DiskImage.getTrack
  by_cases hg : c' < img.cylinders ∧ h' < img.heads
  · have hi : img.trackIndex c h ≠ img.trackIndex c' h' := by
      intro he
      obtain ⟨h1, h2⟩ := img.trackIndex_inj hin.2 hg.2 he
      exact hne ⟨h1.symm, h2.symm⟩
    have hi' : c * img.heads + h ≠ c' * img.heads + h' := hi
    simp [DiskImage.putTrack, hg, DiskImage.trackIndex, List.getElem?_set_ne hi']
  · simp only [DiskImage.putTrack, hg, if_false]

/-- Replacing a track and then putting back the one that was there changes nothing. -/
theorem DiskImage.putTrack_self {img : DiskImage} {c h : Nat} {t : Track}
    (ht : img.getTrack c h = some t) : img.putTrack c h t = img := by
  unfold DiskImage.getTrack at ht
  split at ht
  · obtain ⟨hl, he⟩ := List.getElem?_eq_some_iff.1 ht
    unfold DiskImage.putTrack
    rw [← he, List.set_getElem_self]
  · cases ht

/-- The image in a drive is the one its reference stands for (10_state.md R20). -/
theorem State.imageIn_eq_some {s : State} {k : Nat} {img : DiskImage} :
    s.imageIn k = some img ↔ ∃ h, s.drives.get k = some h ∧ s.images[h]? = some img := by
  simp [State.imageIn, Option.bind_eq_some_iff]

/-- A track that is there is in an image its drive refers to, and in that image's geometry. -/
theorem State.track?_eq_some {s : State} {r : TrackRef} {t : Track} (h : s.track? r = some t) :
    ∃ k img, s.drives.get r.drive = some k ∧ s.images[k]? = some img ∧
      img.getTrack r.cylinder r.head = some t ∧ r.cylinder < img.cylinders ∧ r.head < img.heads := by
  obtain ⟨img, hi, ht⟩ := Option.bind_eq_some_iff.1 h
  obtain ⟨k, hk, hg⟩ := State.imageIn_eq_some.1 hi
  refine ⟨k, img, hk, hg, ht, ?_⟩
  unfold DiskImage.getTrack at ht
  split at ht
  · assumption
  · cases ht

/-- Putting a track changes the image its drive refers to, in place. -/
theorem State.putTrack_images {s : State} {r : TrackRef} {k : Nat} (t : Track)
    (hk : s.drives.get r.drive = some k) :
    (s.putTrack r t).images = s.images.modify k (·.putTrack r.cylinder r.head t) := by
  simp [State.putTrack, hk]

/-- The images with the one at `k` updated, seen at a place. -/
theorem getElem?_modify_image {l : List DiskImage} {k h : Nat} {f : DiskImage → DiskImage} :
    (l.modify k f)[h]? = if k = h then l[h]?.map f else l[h]? := by
  rw [List.getElem?_modify]
  split <;> simp

/-- The track that was put is seen through every reference to the same track (10_state.md R20). -/
theorem State.track?_putTrack_same {s : State} {r r' : TrackRef} {t : Track} (t' : Track)
    (h : s.track? r = some t) (hr : sameTrack s r r') : (s.putTrack r t').track? r' = some t' := by
  obtain ⟨k, img, h1, h2, h3, -⟩ := State.track?_eq_some h
  obtain ⟨e1, e2, e3⟩ := hr
  simp [State.track?, State.imageIn, e1, e2, e3, h1, State.putTrack_images t' h1, h2,
    DiskImage.getTrack_putTrack_same t' h3]

/-- After a track is put, it is that track through every drive that refers to its image. -/
theorem State.trackIs_putTrack {s : State} {r : TrackRef} {t : Track} (t' : Track)
    (h : s.track? r = some t) : trackIs r t' (s.putTrack r t') := fun r' hr =>
  State.track?_putTrack_same t' h (by simpa [sameTrack] using hr)

/-- No other track changes. -/
theorem State.track?_putTrack_other {s : State} {r r' : TrackRef} {t : Track} (t' : Track)
    (h : s.track? r = some t) (hne : ¬sameTrack s r r') : (s.putTrack r t').track? r' = s.track? r' := by
  obtain ⟨k, img, h1, h2, -, h3⟩ := State.track?_eq_some h
  unfold State.track? State.imageIn
  rw [putTrack_drives, State.putTrack_images t' h1]
  cases hd : s.drives.get r'.drive with
  | none => rfl
  | some k' =>
    by_cases hk : k = k'
    · subst hk
      simp only [Option.bind_some, getElem?_modify_image, if_true, h2, Option.map_some]
      refine DiskImage.getTrack_putTrack_other img t' h3 fun hc => hne ⟨?_, hc⟩
      rw [hd, h1]
    · simp [hk]

/-- Putting a track changes no other track, of any image, inserted or not. -/
theorem State.sameElsewhere_putTrack {s : State} {r : TrackRef} {t : Track} (t' : Track)
    (h : s.track? r = some t) : sameElsewhere r s (s.putTrack r t') := by
  refine ⟨putTrack_drives _ _ _, ?_, ?_, fun r' => State.track?_putTrack_other t' h⟩
  all_goals obtain ⟨k, img, h1, h2, -, h3⟩ := State.track?_eq_some h
  · simp [State.putTrack_images t' h1]
  · intro j img1 img2 hi1 hi2
    rw [State.putTrack_images t' h1, getElem?_modify_image] at hi2
    split at hi2
    · subst j
      rw [hi1] at h2 hi2
      cases h2
      cases hi2
      exact ⟨rfl, rfl, rfl, fun c i hne =>
        DiskImage.getTrack_putTrack_other _ t' h3 fun hc => hne ⟨h1, hc⟩⟩
    · rw [hi1] at hi2
      cases hi2
      exact ⟨rfl, rfl, rfl, fun _ _ _ => rfl⟩

/-- Putting back the track that is there changes nothing. -/
theorem State.putTrack_self {s : State} {r : TrackRef} {t : Track} (h : s.track? r = some t) :
    s.putTrack r t = s := by
  obtain ⟨k, img, h1, h2, h3, -⟩ := State.track?_eq_some h
  have : s.images.modify k (·.putTrack r.cylinder r.head t) = s.images := by
    apply List.ext_getElem?
    intro j
    rw [getElem?_modify_image]
    split
    · subst j; simp [h2, DiskImage.putTrack_self h3]
    · rfl
  simp only [State.putTrack, h1, this]

/-! ### The canonical form -/

theorem imageWf_iff {img : DiskImage} :
    imageWf img = true ↔
      img.tracks.length = img.cylinders * img.heads ∧ ∀ t ∈ img.tracks, trackWf t = true := by
  simp [imageWf]

theorem Memory.wf_iff {images : List DiskImage} :
    Memory.wf images = true ↔ ∀ img ∈ images, imageWf img = true := by simp [Memory.wf]

/-- Every track of a well-formed memory is well formed. -/
theorem Memory.wf_track {s : State} {r : TrackRef} {t : Track} (h : Memory.wf s.images = true)
    (ht : s.track? r = some t) : trackWf t = true := by
  obtain ⟨k, img, -, h1, h2, h3, h4⟩ := State.track?_eq_some ht
  have hw := (imageWf_iff.1 (Memory.wf_iff.1 h _ (List.mem_of_getElem? h1))).2
  unfold DiskImage.getTrack at h2
  simp only [h3, h4, and_self, if_true] at h2
  exact hw t (List.mem_of_getElem? h2)

/-- Replacing a track of an image by a well-formed one keeps the image well formed. -/
theorem imageWf_putTrack {img : DiskImage} (c h : Nat) {t : Track} (hw : imageWf img = true)
    (ht : trackWf t = true) : imageWf (img.putTrack c h t) = true := by
  obtain ⟨hl, ha⟩ := imageWf_iff.1 hw
  rw [imageWf_iff]
  refine ⟨by simpa [DiskImage.putTrack] using hl, fun t' ht' => ?_⟩
  rcases List.mem_or_eq_of_mem_set ht' with hm | rfl
  · exact ha t' hm
  · exact ht

/-- Replacing a track by a well-formed one keeps the form. -/
theorem Memory.wf_putTrack {s : State} (r : TrackRef) {t : Track} (h : Memory.wf s.images = true)
    (ht : trackWf t = true) : Memory.wf (s.putTrack r t).images = true := by
  unfold State.putTrack
  split
  · rw [Memory.wf_iff] at h ⊢
    intro img himg
    obtain ⟨j, hj⟩ := List.mem_iff_getElem?.1 himg
    rw [getElem?_modify_image] at hj
    split at hj
    · obtain ⟨i, hi, rfl⟩ := Option.map_eq_some_iff.1 hj
      exact imageWf_putTrack _ _ (h i (List.mem_of_getElem? hi)) ht
    · exact h img (List.mem_of_getElem? hj)
  · exact h

/-- What the scanner admits is placed in the track. -/
theorem locateSectors_placed {p : Params} {fmt : TrackFormat} {clock : List Nat} {data : List Byte} :
    ∀ v ∈ locateSectors p fmt clock data, viewPlaced data v = true := by
  unfold locateSectors
  cases fmt.density? with
  | none => simp
  | some d =>
    suffices h : ∀ (l : List Nat) (sc : Scan), (∀ v ∈ sc.found, viewPlaced data v = true) →
        ∀ v ∈ (l.foldl (scanEntry (idDataMax p d) data) sc).found, viewPlaced data v = true by
      exact h clock _ (by simp)
    intro l
    induction l with
    | nil => intro sc h; simpa using h
    | cons o l ih =>
      intro sc h
      refine ih _ ?_
      unfold scanEntry
      simp only
      repeat' split
      all_goals try exact h
      rename_i hadmit
      intro v hv
      simp only [List.mem_append, List.mem_singleton] at hv
      rcases hv with hv | rfl
      · exact h v hv
      · unfold admits at hadmit
        split at hadmit
        · cases hadmit
        · rename_i n hn
          simp only [Bool.and_eq_true, decide_eq_true_eq] at hadmit
          have hs : 128 ≤ sizeOfCode n := by
            unfold sizeOfCode
            rw [Nat.shiftLeft_eq]
            exact Nat.le_mul_of_pos_right _ (Nat.two_pow_pos _)
          simp only [viewPlaced, Bool.and_eq_true, decide_eq_true_eq]
          omega

/-- An unformatted track has no sectors. -/
@[simp] theorem locateSectors_unknown (p : Params) (clock : List Nat) (data : List Byte) :
    locateSectors p .unknown clock data = [] := rfl

/-- A track whose clock list ascends and whose sectors are the scanner's is well formed. -/
theorem trackWf_of_located {p : Params} {t : Track} (hc : ascending t.clock = true)
    (hs : t.sector = locateSectors p t.format t.clock t.data) : trackWf t = true := by
  have hu : t.format ≠ .unknown ∨ t.sector = [] := by
    by_cases h : t.format = .unknown
    · right; rw [hs, h, locateSectors_unknown]
    · exact .inl h
  have hp : t.sector.all (viewPlaced t.data) = true := by
    rw [List.all_eq_true, hs]; exact locateSectors_placed
  simp [trackWf, hc, hu]
  simpa using hp

theorem ascending_iff_pairwise (l : List Nat) : ascending l = true ↔ l.Pairwise (· ≤ ·) := by
  induction l with
  | nil => simp [ascending]
  | cons a l ih =>
    cases l with
    | nil => simp [ascending]
    | cons b l =>
      simp only [ascending, Bool.and_eq_true, decide_eq_true_eq, ih, List.pairwise_cons, List.mem_cons,
        forall_eq_or_imp]
      constructor
      · rintro ⟨hab, hb, hl⟩
        exact ⟨⟨hab, fun x hx => le_trans hab (hb x hx)⟩, hb, hl⟩
      · rintro ⟨⟨hab, -⟩, hb, hl⟩
        exact ⟨hab, hb, hl⟩

/-- The clock list of a walk ascends and names bytes of its data. -/
theorem tokenStep_clock {p : Params} {w : WalkRun} (b : Byte)
    (h : w.1.clock.Pairwise (· ≤ ·) ∧ ∀ o ∈ w.1.clock, o ≤ 8 * w.1.data.length) :
    (tokenStep p w b).1.clock.Pairwise (· ≤ ·) ∧
      ∀ o ∈ (tokenStep p w b).1.clock, o ≤ 8 * (tokenStep p w b).1.data.length := by
  have hlit : ∀ c : Byte, (tokenLiteral c w).1.clock.Pairwise (· ≤ ·) ∧
      ∀ o ∈ (tokenLiteral c w).1.clock, o ≤ 8 * (tokenLiteral c w).1.data.length := by
    intro c
    refine ⟨h.1, fun o ho => ?_⟩
    have := h.2 o ho
    simp only [tokenLiteral, List.length_append, List.length_singleton]
    omega
  unfold tokenStep
  split
  · refine ⟨h.1, fun o ho => ?_⟩
    have := h.2 o ho
    simp only [tokenCrc, List.length_append]
    omega
  split
  · refine ⟨?_, fun o ho => ?_⟩
    · simp only [tokenMark, List.pairwise_append, List.pairwise_singleton, List.mem_singleton, forall_eq,
        true_and]
      exact ⟨h.1, h.2⟩
    · simp only [tokenMark, List.mem_append, List.mem_singleton, List.length_append,
        List.length_singleton] at ho ⊢
      rcases ho with ho | rfl
      · have := h.2 o ho; omega
      · omega
  split
  · unfold tokenSync; split <;> exact hlit _
  split
  · unfold tokenSync; split <;> exact hlit _
  · exact hlit _

theorem walkStream_clock (p : Params) (d : Density) (raw : List Byte) :
    (walkStream p d raw).1.clock.Pairwise (· ≤ ·) := by
  suffices h : ∀ (l : List Byte) (w : WalkRun),
      (w.1.clock.Pairwise (· ≤ ·) ∧ ∀ o ∈ w.1.clock, o ≤ 8 * w.1.data.length) →
      (l.foldl (tokenStep p) w).1.clock.Pairwise (· ≤ ·) by
    exact h raw _ (by simp [walkStart])
  intro l
  induction l with
  | nil => intro w h; exact h.1
  | cons b l ih => intro w h; exact ih _ (tokenStep_clock b h)

theorem relocate_wf {p : Params} {t : Track} (h : ascending t.clock = true) :
    trackWf (relocate p t) = true := trackWf_of_located (p := p) h rfl

/-- The track a track `Write` installs. -/
theorem walkTrack_wf (p : Params) (d : Density) (raw : List Byte) :
    trackWf (walkTrack p (walkStream p d raw).1) = true :=
  relocate_wf ((ascending_iff_pairwise _).2 (walkStream_clock p d raw))

/-- The track a `RawWrite` installs. -/
theorem rawTrack_wf {p : Params} {fmt : TrackFormat} {clock : List Nat} {data : List Byte}
    (h : ascending clock = true) : trackWf (rawTrack p fmt clock data) = true := relocate_wf h

/-- A track that differs from a well-formed one in bytes and `dirty` only. -/
theorem trackWf_of_bytes {t t' : Track} (h : trackWf t = true) (hl : t'.data.length = t.data.length)
    (hc : t'.clock = t.clock) (hf : t'.format = t.format) (hs : t'.sector = t.sector) :
    trackWf t' = true := by
  have : ∀ v, viewPlaced t'.data v = viewPlaced t.data v := by intro v; simp [viewPlaced, hl]
  simpa [trackWf, hc, hf, hs, this] using h

/-- `DataModified` changes bytes of the data and `dirty`. -/
theorem dataModified_shape {p : Params} {d : Density} {t t' : Track} {v : View} {c : Word16}
    (h : dataModified p d t v = some (t', c)) :
    t' = { t with data := t'.data, dirty := true } ∧ t'.data.length = t.data.length := by
  unfold dataModified at h
  split at h
  · split at h
    · rename_i data hd
      cases h
      exact ⟨rfl, memWrite_length hd⟩
    · cases h
  · cases h

/-- A sector `Write` changes bytes of the data and may set `dirty`. -/
theorem sectorWrite_shape {p : Params} {d : Density} {t t' : Track} {v : View} {mark : Byte}
    {buf : List Byte} {c : Option Word16} (h : sectorWrite p d t v mark buf = some (t', c)) :
    t' = { t with data := t'.data, dirty := t'.dirty } ∧ t'.data.length = t.data.length := by
  unfold sectorWrite at h
  split at h
  · cases h
  · simp only at h
    split at h
    · cases h
    · split at h
      · cases h
        exact ⟨rfl, rfl⟩
      · split at h
        · cases h
        · rename_i data hd
          split at h
          · rename_i t1 c1 hm
            cases h
            obtain ⟨h1, h2⟩ := dataModified_shape hm
            refine ⟨by rw [h1], ?_⟩
            rw [h2]
            exact memWrite_length hd
          · cases h

theorem dataModified_wf {p : Params} {d : Density} {t t' : Track} {v : View} {c : Word16}
    (ht : trackWf t = true) (h : dataModified p d t v = some (t', c)) : trackWf t' = true := by
  obtain ⟨h1, h2⟩ := dataModified_shape h
  exact trackWf_of_bytes ht h2 (by rw [h1]) (by rw [h1]) (by rw [h1])

theorem sectorWrite_wf {p : Params} {d : Density} {t t' : Track} {v : View} {mark : Byte}
    {buf : List Byte} {c : Option Word16} (ht : trackWf t = true)
    (h : sectorWrite p d t v mark buf = some (t', c)) : trackWf t' = true := by
  obtain ⟨h1, h2⟩ := sectorWrite_shape h
  exact trackWf_of_bytes ht h2 (by rw [h1]) (by rw [h1]) (by rw [h1])

/-- An image that may be inserted is well formed. -/
theorem imageWf_of_imageOk {p : Params} {img : DiskImage} (h : imageOk p img = true) :
    imageWf img = true := by
  simp only [imageOk, Bool.and_eq_true, decide_eq_true_eq, List.all_eq_true] at h
  rw [imageWf_iff]
  refine ⟨h.1, fun t ht => ?_⟩
  have := h.2 t ht
  simp only [trackOk, Bool.and_eq_true, decide_eq_true_eq] at this
  exact trackWf_of_located this.1.1 this.1.2

/-! Every memory operation keeps the form. -/

theorem writeSectorAt_memory_wf {r : TrackRef} {v : View} {mark : Byte} {buf : List Byte} {s s' : State}
    (hm : Memory.wf s.images = true) (h : writeSectorAt r v mark buf s = .next s') :
    Memory.wf s'.images = true := by
  obtain ⟨t, d, ⟨t', c⟩, ht, -, -, hw, rfl⟩ := writeSectorAt_eq_next.1 h
  simpa using Memory.wf_putTrack r hm (sectorWrite_wf (Memory.wf_track hm ht) hw)

theorem writeTrackAt_memory_wf {r : TrackRef} {d : Density} {raw : List Byte} {s s' : State}
    (hm : Memory.wf s.images = true) (h : writeTrackAt r d raw s = .next s') :
    Memory.wf s'.images = true := by
  obtain ⟨-, rfl⟩ := writeTrackAt_eq_next.1 h
  simpa using Memory.wf_putTrack r hm (walkTrack_wf s.cfg d raw)

theorem commit_memory_wf {n : Nat} {s s' : State} (hm : Memory.wf s.images = true)
    (h : commit n s = .next s') : Memory.wf s'.images = true := by
  rcases commit_eq_next.1 h with ⟨r, v, -, -, h⟩ | ⟨r, -, -, h⟩
  · exact writeSectorAt_memory_wf hm h
  · exact writeTrackAt_memory_wf hm h

theorem execDataModified_memory_wf {r : TrackRef} {v : View} {s s' : State}
    (hm : Memory.wf s.images = true) (h : execDataModified r v s = .next s') :
    Memory.wf s'.images = true := by
  unfold execDataModified at h
  simp only [withView_eq_next, withDensity_eq_next, orRefuse_eq_next, Host.Outcome.next.injEq] at h
  obtain ⟨t, ht, -, d, -, ⟨t', c⟩, hw, rfl⟩ := h
  simpa using Memory.wf_putTrack r hm (dataModified_wf (Memory.wf_track hm ht) hw)

theorem execTrackRawWrite_memory_wf {r : TrackRef} {fmt : TrackFormat} {clock : List Nat}
    {data : List Byte} {s s' : State} (hm : Memory.wf s.images = true)
    (h : execTrackRawWrite r fmt clock data s = .next s') : Memory.wf s'.images = true := by
  unfold execTrackRawWrite at h
  split at h
  · cases h
  · rename_i ha
    split at h
    · cases h
    · simp only [withTrack_eq_next, Host.Outcome.next.injEq] at h
      obtain ⟨t, -, rfl⟩ := h
      exact Memory.wf_putTrack r hm (rawTrack_wf (by simpa using ha))

theorem execTrackLocateSectors_memory_wf {r : TrackRef} {s s' : State} (hm : Memory.wf s.images = true)
    (h : execTrackLocateSectors r s = .next s') : Memory.wf s'.images = true := by
  unfold execTrackLocateSectors at h
  simp only [withTrack_eq_next, Host.Outcome.next.injEq] at h
  obtain ⟨t, ht, rfl⟩ := h
  have := Memory.wf_track hm ht
  simp only [trackWf, Bool.and_eq_true] at this
  exact Memory.wf_putTrack r hm (relocate_wf this.1.1)

/-- An insertion makes a drive refer to an image, which is new and sound or already there. -/
theorem insertImage_eq_next {k : Nat} {img : ImageOperand} {s s' : State} :
    insertImage k img s = .next s' ↔ driveOk k = true ∧ driveInUse k s = false ∧ ∃ h images,
      s' = reply .nothing { s with drives := s.drives.set k (some h), images := images } ∧
      ((∃ i, img = .new i ∧ imageOk s.cfg i = true ∧ h = s.images.length ∧ images = s.images ++ [i]) ∨
        img = .known h ∧ h < s.images.length ∧ images = s.images) := by
  unfold insertImage
  cases driveOk k with
  | false => simp
  | true =>
    cases driveInUse k s with
    | true => simp
    | false =>
      simp only [Bool.not_true, Bool.false_eq_true, if_false, true_and]
      constructor
      · intro h
        unfold bringImage at h
        split at h <;> split at h <;> cases h
        · rename_i i hi
          exact ⟨_, _, rfl, .inl ⟨i, rfl, hi, rfl, rfl⟩⟩
        · rename_i j hj
          exact ⟨_, _, rfl, .inr ⟨rfl, hj, rfl⟩⟩
      · rintro ⟨h, images, rfl, ⟨i, rfl, hi, rfl, rfl⟩ | ⟨rfl, hj, rfl⟩⟩
        · simp [bringImage, hi]
        · simp [bringImage, hj]

theorem insertImage_memory_wf {k : Nat} {img : ImageOperand} {s s' : State}
    (hm : Memory.wf s.images = true) (h : insertImage k img s = .next s') :
    Memory.wf s'.images = true := by
  obtain ⟨-, -, j, images, rfl, ⟨i, -, hi, -, rfl⟩ | ⟨-, -, rfl⟩⟩ := insertImage_eq_next.1 h
  · rw [Memory.wf_iff] at hm ⊢
    intro img' himg
    rcases List.mem_append.1 himg with hmem | hmem
    · exact hm img' hmem
    · rw [List.mem_singleton.1 hmem]
      exact imageWf_of_imageOk hi
  · exact hm

/-- A removal empties a drive. -/
theorem ejectImage_eq_next {k : Nat} {s s' : State} :
    ejectImage k s = .next s' ↔ driveOk k = true ∧ driveInUse k s = false ∧
      s' = reply .nothing { s with drives := s.drives.set k none } := by
  unfold ejectImage
  cases driveOk k <;> cases driveInUse k s <;> simp [@eq_comm _ s']

theorem ejectImage_memory_wf {k : Nat} {s s' : State} (hm : Memory.wf s.images = true)
    (h : ejectImage k s = .next s') : Memory.wf s'.images = true := by
  obtain ⟨-, -, rfl⟩ := ejectImage_eq_next.1 h
  exact hm

/-- The memory right after reset has the form. -/
theorem reset_memory_wf : Memory.wf State.reset.images = true := rfl

end Sys2Proof.Machine
end

