-- ==== Sys2Proof/Laws/PerInstr.lean ====
section
/-! SUPPORT. A statement about every operation as syntax, made per constructor: what has a bit encoding, and
through which format of 30_encoding.md R60 it arrives. -/

namespace Sys2Proof.Laws

/-- The encoder gives an access exactly for the operations that have a bit encoding, and the access arrives
through the format the opcode table gives the row. -/
def EncodingFormat.Statement (i : Instr) : Prop :=
  ∀ m : PortMap, (encode m i).map HostAccess.format = if i.format = .unit then none else some i.format

theorem EncodingFormat.restore (h v : Bool) (r : BitVec 2) :
    EncodingFormat.Statement (.restore h v r) := fun _ => rfl
theorem EncodingFormat.seek (h v : Bool) (r : BitVec 2) :
    EncodingFormat.Statement (.seek h v r) := fun _ => rfl
theorem EncodingFormat.step (u h v : Bool) (r : BitVec 2) :
    EncodingFormat.Statement (.step u h v r) := fun _ => rfl
theorem EncodingFormat.stepin (u h v : Bool) (r : BitVec 2) :
    EncodingFormat.Statement (.stepin u h v r) := fun _ => rfl
theorem EncodingFormat.stepout (u h v : Bool) (r : BitVec 2) :
    EncodingFormat.Statement (.stepout u h v r) := fun _ => rfl
theorem EncodingFormat.rdsec (m sb e ca1 a0 : Bool) :
    EncodingFormat.Statement (.rdsec m sb e ca1 a0) := fun _ => rfl
theorem EncodingFormat.wrsec (m sb e ca1 a0 : Bool) :
    EncodingFormat.Statement (.wrsec m sb e ca1 a0) := fun _ => rfl
theorem EncodingFormat.rdaddr (x : BitVec 4) : EncodingFormat.Statement (.rdaddr x) := fun _ => rfl
theorem EncodingFormat.forceint (x : BitVec 4) : EncodingFormat.Statement (.forceint x) := fun _ => rfl
theorem EncodingFormat.rdtrk (x : BitVec 4) : EncodingFormat.Statement (.rdtrk x) := fun _ => rfl
theorem EncodingFormat.wrtrk (x : BitVec 4) : EncodingFormat.Statement (.wrtrk x) := fun _ => rfl
theorem EncodingFormat.rsta : EncodingFormat.Statement .rsta := fun _ => rfl
theorem EncodingFormat.rtrk : EncodingFormat.Statement .rtrk := fun _ => rfl
theorem EncodingFormat.rsec : EncodingFormat.Statement .rsec := fun _ => rfl
theorem EncodingFormat.rdat : EncodingFormat.Statement .rdat := fun _ => rfl
theorem EncodingFormat.wcmd (bus : Byte) : EncodingFormat.Statement (.wcmd bus) := fun _ => rfl
theorem EncodingFormat.wtrk (bus : Byte) : EncodingFormat.Statement (.wtrk bus) := fun _ => rfl
theorem EncodingFormat.wsec (bus : Byte) : EncodingFormat.Statement (.wsec bus) := fun _ => rfl
theorem EncodingFormat.wdat (bus : Byte) : EncodingFormat.Statement (.wdat bus) := fun _ => rfl
theorem EncodingFormat.cru0 (v : Bool) : EncodingFormat.Statement (.cru0 v) := fun _ => rfl
theorem EncodingFormat.cru1 (v : Bool) : EncodingFormat.Statement (.cru1 v) := fun _ => rfl
theorem EncodingFormat.cru2 (v : Bool) : EncodingFormat.Statement (.cru2 v) := fun _ => rfl
theorem EncodingFormat.cru3 (v : Bool) : EncodingFormat.Statement (.cru3 v) := fun _ => rfl
theorem EncodingFormat.cru4 (v : Bool) : EncodingFormat.Statement (.cru4 v) := fun _ => rfl
theorem EncodingFormat.cru5 (v : Bool) : EncodingFormat.Statement (.cru5 v) := fun _ => rfl
theorem EncodingFormat.cru6 (v : Bool) : EncodingFormat.Statement (.cru6 v) := fun _ => rfl
theorem EncodingFormat.cru7 (v : Bool) : EncodingFormat.Statement (.cru7 v) := fun _ => rfl
theorem EncodingFormat.lit00to7F (x : BitVec 7) : EncodingFormat.Statement (.lit00to7F x) := fun _ => rfl
theorem EncodingFormat.lit80toBF (x : BitVec 6) : EncodingFormat.Statement (.lit80toBF x) := fun _ => rfl
theorem EncodingFormat.litC0toDF (x : BitVec 5) : EncodingFormat.Statement (.litC0toDF x) := fun _ => rfl
theorem EncodingFormat.litE0toEF (x : BitVec 4) : EncodingFormat.Statement (.litE0toEF x) := fun _ => rfl
theorem EncodingFormat.litF0toF3 (x : BitVec 2) : EncodingFormat.Statement (.litF0toF3 x) := fun _ => rfl
theorem EncodingFormat.litF4 : EncodingFormat.Statement .litF4 := fun _ => rfl
theorem EncodingFormat.tokF5 : EncodingFormat.Statement .tokF5 := fun _ => rfl
theorem EncodingFormat.tokF6 : EncodingFormat.Statement .tokF6 := fun _ => rfl
theorem EncodingFormat.tokCrc : EncodingFormat.Statement .tokCrc := fun _ => rfl
theorem EncodingFormat.tokDam (x : BitVec 2) : EncodingFormat.Statement (.tokDam x) := fun _ => rfl
theorem EncodingFormat.tokIxam : EncodingFormat.Statement .tokIxam := fun _ => rfl
theorem EncodingFormat.tokFd : EncodingFormat.Statement .tokFd := fun _ => rfl
theorem EncodingFormat.tokIdam : EncodingFormat.Statement .tokIdam := fun _ => rfl
theorem EncodingFormat.litFF : EncodingFormat.Statement .litFF := fun _ => rfl
theorem EncodingFormat.crcInit (v : Word16) : EncodingFormat.Statement (.crcInit v) := fun _ => rfl
theorem EncodingFormat.crcUpdateBit (b : Bool) : EncodingFormat.Statement (.crcUpdateBit b) := fun _ => rfl
theorem EncodingFormat.crcUpdateByte (d : Byte) : EncodingFormat.Statement (.crcUpdateByte d) := fun _ => rfl
theorem EncodingFormat.crcOver (preset : Word16) (bytes : List Byte) :
    EncodingFormat.Statement (.crcOver preset bytes) := fun _ => rfl
theorem EncodingFormat.crcAppend (preset : Word16) (bytes : List Byte) :
    EncodingFormat.Statement (.crcAppend preset bytes) := fun _ => rfl
theorem EncodingFormat.verifyId (t : TrackRef) (sec : View) :
    EncodingFormat.Statement (.verifyId t sec) := fun _ => rfl
theorem EncodingFormat.verifyData (t : TrackRef) (sec : View) :
    EncodingFormat.Statement (.verifyData t sec) := fun _ => rfl
theorem EncodingFormat.dataModified (t : TrackRef) (sec : View) :
    EncodingFormat.Statement (.dataModified t sec) := fun _ => rfl
theorem EncodingFormat.newBitStream (buf : List Byte) (totalBits : Nat) (order : BitOrder) (skip : Bool) :
    EncodingFormat.Statement (.newBitStream buf totalBits order skip) := fun _ => rfl
theorem EncodingFormat.bitNext (handle : Nat) : EncodingFormat.Statement (.bitNext handle) := fun _ => rfl
theorem EncodingFormat.bitSeek (handle : Nat) (o : Nat) :
    EncodingFormat.Statement (.bitSeek handle o) := fun _ => rfl
theorem EncodingFormat.bitPositions (handle : Nat) :
    EncodingFormat.Statement (.bitPositions handle) := fun _ => rfl
theorem EncodingFormat.syncTestFm (reg : Word16) (filled : Nat) (hunting : Bool) (cell : Nat) :
    EncodingFormat.Statement (.syncTestFm reg filled hunting cell) := fun _ => rfl
theorem EncodingFormat.syncTestMfm (reg : Word16) (filled : Nat) (hunting : Bool) (cell : Nat) :
    EncodingFormat.Statement (.syncTestMfm reg filled hunting cell) := fun _ => rfl
theorem EncodingFormat.lostClockFm (reg : Word16) (cell : Nat) :
    EncodingFormat.Statement (.lostClockFm reg cell) := fun _ => rfl
theorem EncodingFormat.lostClockMfm (reg : Word16) (cell : Nat) :
    EncodingFormat.Statement (.lostClockMfm reg cell) := fun _ => rfl
theorem EncodingFormat.decode (fmt : TrackFormat) (src : RawSource) :
    EncodingFormat.Statement (.decode fmt src) := fun _ => rfl
theorem EncodingFormat.encode (fmt : TrackFormat) (frags : List Fragment) :
    EncodingFormat.Statement (.encode fmt frags) := fun _ => rfl
theorem EncodingFormat.sectorSize (t : TrackRef) (sec : View) :
    EncodingFormat.Statement (.sectorSize t sec) := fun _ => rfl
theorem EncodingFormat.sectorMatches (t : TrackRef) (sec : View) (c h n : Int) :
    EncodingFormat.Statement (.sectorMatches t sec c h n) := fun _ => rfl
theorem EncodingFormat.sectorRead (t : TrackRef) (sec : View) :
    EncodingFormat.Statement (.sectorRead t sec) := fun _ => rfl
theorem EncodingFormat.sectorValidId (t : TrackRef) (sec : View) :
    EncodingFormat.Statement (.sectorValidId t sec) := fun _ => rfl
theorem EncodingFormat.sectorValidData (t : TrackRef) (sec : View) :
    EncodingFormat.Statement (.sectorValidData t sec) := fun _ => rfl
theorem EncodingFormat.sectorWrite (t : TrackRef) (sec : View) (mark : Byte) (buf : List Byte) :
    EncodingFormat.Statement (.sectorWrite t sec mark buf) := fun _ => rfl
theorem EncodingFormat.trackWrite (t : TrackRef) (fmt : TrackFormat) (raw : List Byte) :
    EncodingFormat.Statement (.trackWrite t fmt raw) := fun _ => rfl
theorem EncodingFormat.trackRawWrite (t : TrackRef) (fmt : TrackFormat) (clock : List Nat) (data : List Byte) :
    EncodingFormat.Statement (.trackRawWrite t fmt clock data) := fun _ => rfl
theorem EncodingFormat.trackLocateSectors (t : TrackRef) :
    EncodingFormat.Statement (.trackLocateSectors t) := fun _ => rfl
theorem EncodingFormat.trackGetSector (t : TrackRef) (c h n : Int) :
    EncodingFormat.Statement (.trackGetSector t c h n) := fun _ => rfl
theorem EncodingFormat.reset : EncodingFormat.Statement .reset := fun _ => rfl

end Sys2Proof.Laws
end

