-- ==== Sys2Proof/Tests/Slice0.lean ====
section
/-! SUPPORT. Tests. Expected values come from the worked examples and the derived vectors of the spec
(95_test_vectors.md, named at each test) or from its encoding tables. The witnesses at the end meet the
hypotheses of the statements in Certificates/Slice0/Obligations.lean, clause by clause. -/

namespace Sys2Proof.Tests

set_option Elab.async false

open Sys2Proof Sys2Proof.Machine

/-! ### Helpers -/

/-- The outcome is a next state of which a test holds. -/
def ok (o : Out) (p : State → Bool) : Bool :=
  match o with
  | .next s => p s
  | .fault _ => false
  | .refused _ => false

/-- The operation hands this result to its caller. -/
def answers (i : Instr) (s : State) (r : Result) : Bool := ok (exec i s) fun t => t.result == r

/-- The operation is refused for this reason. -/
def refuses (i : Instr) (s : State) (r : Refusal) : Bool :=
  match exec i s with
  | .refused q => q == r
  | .next _ => false
  | .fault _ => false

theorem exists_next {o : Out} (h : ok o (fun _ => true) = true) : ∃ s, o = .next s := by
  cases o with
  | next s => exact ⟨s, rfl⟩
  | fault r => cases r
  | refused r => simp [ok] at h

/-- The parameters of the programs of 95_test_vectors.md, part C. -/
def params : Params :=
  { Config.resetParams with isFD1771 := true, clocksPerRev := 600000, indexPulseClocks := 1000 }

/-- The same for an FD179x. -/
def paramsFD179x : Params := { params with isFD1771 := false }

/-- The same FD1771 in another status layout (`BUSY` in bit 7, `DRQ` and `INDEX` in bit 6, `NOT_FOUND` in
bit 3, `CRC_ERROR` in bit 4) and with head-load at CRU bit 2. -/
def paramsOther : Params :=
  { params with
    layout1771 := { Config.defaultLayout with
      busy := 7, drq := 6, index := 6, crcError := 4, notFound := 3, notReady := 0, writeProtected := 1
      recordHigh := 1 }
    cruHeadLoad := 2, cruXferEn := 3 }

/-- The 402 bytes of 46_track_buffer.md R214. -/
def bytes214 : List Byte :=
  List.replicate 16 0xFF#8 ++ List.replicate 6 0x00#8 ++
  [0xFE#8, 0x00#8, 0x00#8, 0x01#8, 0x01#8, 0xC2#8, 0xE2#8] ++
  List.replicate 11 0xFF#8 ++ List.replicate 6 0x00#8 ++
  0xFB#8 :: List.replicate 256 0xE5#8 ++ [0xA4#8, 0x0C#8] ++ List.replicate 97 0xFF#8

/-- The track of R214, as `RawWrite` would have left it. -/
def track214 : Track :=
  { dirty := false, format := .fm, clock := [176, 368], data := bytes214, sector := [⟨22, 46⟩] }

/-- The track of R214 with one byte changed by a mask. -/
def corrupted (a : Nat) (mask : Byte) : Track :=
  { track214 with data := bytes214.set a (bytes214.getD a 0x00#8 ^^^ mask) }

/-- A one-track image. -/
def image (t : Track) : DiskImage :=
  { cylinders := 1, heads := 1, writeProtected := false, tracks := [t] }

/-- After reset, with a track in drive 1 and `CRU 4,1` done: the start of 95_test_vectors.md B9, B10. -/
def withDisk (p : Params) (t : Track) : State :=
  { State.resetWith p with
    hardwareBits := 0x10#8
    driveSelect := 1
    drives := { drive1 := some 0, drive2 := none, drive3 := none }
    images := [image t] }

/-- The disk of R214 in drive 1. -/
def disk : State := withDisk params track214

/-- The same, with its image write-protected. -/
def protectedDisk : State :=
  { disk with images := [{ image track214 with writeProtected := true }] }

/-- The same, with the sector register at 1. -/
def sector1 (p : Params) (t : Track) : State := { withDisk p t with sectorRegister := 0x01#8 }

/-- The reference of the one track. -/
def ref0 : TrackRef := ⟨1, 0, 0⟩

/-- The view of the one sector of R214. -/
def view0 : View := ⟨22, 46⟩

/-- The smallest track with a sector: an ID field, at once a data field of 128 bytes, and their CRCs, all of
them rows of 95_test_vectors.md B1.3. -/
def tinyBytes : List Byte :=
  [0xFE#8, 0x01#8, 0x02#8, 0x03#8, 0x00#8, 0xAC#8, 0x75#8, 0xFB#8] ++ List.replicate 128 0xE5#8 ++
  [0x5D#8, 0x30#8]

/-- The same with another data mark and other stored CRC bytes. -/
abbrev tinyWith (mark a b : Byte) : List Byte := ((tinyBytes.set 7 mark).set 136 a).set 137 b

/-- A track with these bytes, both marks in its clock list. -/
def tinyTrack (data : List Byte) : Track :=
  { dirty := false, format := .fm, clock := [0, 56], data := data, sector := [⟨0, 7⟩] }

/-- The one view of a tiny track. -/
def tinyView : View := ⟨0, 7⟩

/-- A tiny track in drive 1, with its ID in the registers. -/
def tinyDisk (p : Params) (data : List Byte) : State :=
  { withDisk p (tinyTrack data) with trackRegister := 0x01#8, sectorRegister := 0x03#8 }

/-- Bytes as raw bits, MSB-first, cut to a number of bits. -/
def bitsOf (n : Nat) (l : List Byte) : List Bool :=
  (l.flatMap fun b => [7, 6, 5, 4, 3, 2, 1, 0].map fun k => b.getLsbD k).take n

/-- A fragment, as 95_test_vectors.md B4 writes it. -/
def frag (a b : Nat) (c : Int) (l : List Byte) : Fragment := ⟨a, b, c, l⟩

/-- A read transfer with its last `n` bytes to come, all 0xE5. -/
def reading (kind : Transfer) (n : Nat) : State :=
  { disk with
    dataBuffer := List.replicate 4 0xE5#8, bytesExpected := 4, bytesLeft := n, readDataPtr := 4 - n
    cmdInProgress := kind, statusRegister := 0x03#8, statusTypeI := false, xferDrive := 1 }

/-- A write transfer to a target with its last `n` bytes to come and zeros in its buffer. -/
def writing (kind : Transfer) (v : Option View) (len n : Nat) : State :=
  { disk with
    dataBuffer := List.replicate len 0x00#8, bytesExpected := len, bytesLeft := n
    cmdInProgress := kind, xferTarget := some ⟨ref0, v⟩, statusRegister := 0x03#8, statusTypeI := false
    xferDrive := 1 }

/-- A state with one reader. -/
def withBits (buf : List Byte) (totalBits : Nat) (order : BitOrder) (skip : Bool) (at_ : Nat) : State :=
  { State.resetWith params with
    readers := [{ buf := buf, totalBits := totalBits, bitOffset := at_, skip := skip, order := order }] }

/-- A state with an open walk of four bytes and its running CRC. -/
def walking (d : Density) (c : Word16) : State :=
  { State.resetWith params with
    walk := some { density := d, data := List.replicate 4 0x00#8, clock := [] }, crc := c, crcReady := true }

/-- The step is refused for this reason. -/
def stepRefuses (s : State) (r : Refusal) : Bool :=
  match step s with
  | .refused q => q == r
  | .next _ => false
  | .fault _ => false

/-- What a token stored after the four bytes of `walking`, the clock list and the running CRC. -/
def walked (i : Instr) (s : State) (stored : List Byte) (clock : List Nat) (c : Word16) : Bool :=
  ok (exec i s) fun t =>
    (t.walk.map fun w => (w.data.drop 4, w.clock)) == some (stored, clock) && t.crc == c

/-- The registers of a Type I row of 95_test_vectors.md B9: `trackSelect`, `trackRegister`, `stepDir`,
status. -/
def moved (o : Out) (cylinder : Nat) (register : Byte) (dir : StepDir) (status : Byte) : Bool :=
  ok o fun t =>
    t.trackSelect == cylinder && t.trackRegister == register && t.stepDir == dir && t.statusRegister == status

/-! ### Well-formed terms: one ill-formed term for each check -/

theorem test_wf_drive_zero : Instr.wellFormed (Instr.sectorRead ⟨0, 0, 0⟩ view0) = false := by decide
theorem test_wf_drive_four : Instr.wellFormed (Instr.verifyId ⟨4, 0, 0⟩ view0) = false := by decide
theorem test_wf_stream_too_long : Instr.wellFormed (Instr.newBitStream [0xA5#8] 9 .msb false) = false := by decide
theorem test_wf_register_fill : Instr.wellFormed (Instr.syncTestFm 0#16 17 true 0) = false := by decide
theorem test_wf_sync_cell : Instr.wellFormed (Instr.syncTestMfm 0#16 16 true 16) = false := by decide
theorem test_wf_lost_cell_low : Instr.wellFormed (Instr.lostClockFm 0#16 0) = false := by decide
theorem test_wf_lost_cell_high : Instr.wellFormed (Instr.lostClockMfm 0#16 17) = false := by decide
theorem test_wf_decode_unknown : Instr.wellFormed (Instr.decode .unknown (.bits [])) = false := by decide
theorem test_wf_encode_unknown : Instr.wellFormed (Instr.encode .unknown []) = false := by decide
/-- B6.8: overlap. -/
theorem test_wf_fragments_overlap :
    Instr.wellFormed (Instr.encode .fm [frag 0 32 0xC7 [0xFE#8, 0x00#8], frag 16 48 0xC7 [0xFB#8, 0x00#8]]) = false := by
  decide
/-- B6.9: an empty fragment. -/
theorem test_wf_fragment_empty : Instr.wellFormed (Instr.encode .fm [frag 0 0 0xC7 []]) = false := by decide
/-- B6.9: an end that does not agree with the length. -/
theorem test_wf_fragment_end : Instr.wellFormed (Instr.encode .fm [frag 0 40 0xC7 [0xFE#8, 0x00#8]]) = false := by decide
theorem test_wf_fragment_clock : Instr.wellFormed (Instr.encode .fm [frag 0 16 256 [0xFE#8]]) = false := by decide
theorem test_wf_lookup_low : Instr.wellFormed (Instr.sectorMatches ref0 view0 (-2) 0 0) = false := by decide
theorem test_wf_lookup_high : Instr.wellFormed (Instr.trackGetSector ref0 0 0 256) = false := by decide
theorem test_wf_write_unknown : Instr.wellFormed (Instr.trackWrite ref0 .unknown []) = false := by decide
theorem test_wf_clock_descends : Instr.wellFormed (Instr.trackRawWrite ref0 .fm [8, 7] []) = false := by decide

/-! ### Decoding: every encoded row, its word written out from 30_encoding.md -/

/-- R62 to R66, a byte of every row of the command map. -/
theorem test_decode_commands :
    decodeCommand 0b00001101#8 = .restore true true 0b01#2 ∧
    decodeCommand 0b00010110#8 = .seek false true 0b10#2 ∧
    decodeCommand 0b00110100#8 = .step true false true 0b00#2 ∧
    decodeCommand 0b01001011#8 = .stepin false true false 0b11#2 ∧
    decodeCommand 0b01110001#8 = .stepout true false false 0b01#2 ∧
    decodeCommand 0b10011000#8 = .rdsec true true false false false ∧
    decodeCommand 0b10100101#8 = .wrsec false false true false true ∧
    decodeCommand 0b11000100#8 = .rdaddr 0b0100#4 ∧
    decodeCommand 0b11011000#8 = .forceint 0b1000#4 ∧
    decodeCommand 0b11100001#8 = .rdtrk 0b0001#4 ∧
    decodeCommand 0b11110010#8 = .wrtrk 0b0010#4 := by decide

/-- R68, the eight ports at their default addresses, an odd neighbour, and an address of no port. -/
theorem test_decode_ports :
    decode Config.defaultPorts (.memRead 0b0101111111110000#16) = .ok .rsta ∧
    decode Config.defaultPorts (.memRead 0b0101111111110010#16) = .ok .rtrk ∧
    decode Config.defaultPorts (.memRead 0b0101111111110100#16) = .ok .rsec ∧
    decode Config.defaultPorts (.memRead 0b0101111111110111#16) = .ok .rdat ∧
    decode Config.defaultPorts (.memWrite 0b0101111111111000#16 0x77#8) = .ok (.wcmd 0x77#8) ∧
    decode Config.defaultPorts (.memWrite 0b0101111111111010#16 0x00#8) = .ok (.wtrk 0x00#8) ∧
    decode Config.defaultPorts (.memWrite 0b0101111111111100#16 0xFE#8) = .ok (.wsec 0xFE#8) ∧
    decode Config.defaultPorts (.memWrite 0b0101111111111110#16 0xAA#8) = .ok (.wdat 0xAA#8) ∧
    decode Config.defaultPorts (.memRead 0b0101111111111000#16) = .error .notAPort ∧
    decode Config.defaultPorts (.memWrite 0b0101111111110000#16 0x00#8) = .error .notAPort := by decide

/-- R69, the eight CRU bits, the one after them, and a CRU read (R231). -/
theorem test_decode_cru :
    decode Config.defaultPorts (.cruWrite 0b0001000100000000#16 true) = .ok (.cru0 true) ∧
    decode Config.defaultPorts (.cruWrite 0b0001000100000001#16 true) = .ok (.cru1 true) ∧
    decode Config.defaultPorts (.cruWrite 0b0001000100000010#16 false) = .ok (.cru2 false) ∧
    decode Config.defaultPorts (.cruWrite 0b0001000100000011#16 true) = .ok (.cru3 true) ∧
    decode Config.defaultPorts (.cruWrite 0b0001000100000100#16 true) = .ok (.cru4 true) ∧
    decode Config.defaultPorts (.cruWrite 0b0001000100000101#16 false) = .ok (.cru5 false) ∧
    decode Config.defaultPorts (.cruWrite 0b0001000100000110#16 true) = .ok (.cru6 true) ∧
    decode Config.defaultPorts (.cruWrite 0b0001000100000111#16 true) = .ok (.cru7 true) ∧
    decode Config.defaultPorts (.cruWrite 0b0001000100001000#16 true) = .error .notACruBit ∧
    decode Config.defaultPorts (.cruRead 0b0001000100000100#16) = .error .cruRead := by decide

/-- R78, both ends of every row of tokens. -/
theorem test_decode_tokens :
    decodeToken 0b00000000#8 = .lit00to7F 0b0000000#7 ∧ decodeToken 0b01111111#8 = .lit00to7F 0b1111111#7 ∧
    decodeToken 0b10000000#8 = .lit80toBF 0b000000#6 ∧ decodeToken 0b10111111#8 = .lit80toBF 0b111111#6 ∧
    decodeToken 0b11000001#8 = .litC0toDF 0b00001#5 ∧ decodeToken 0b11011111#8 = .litC0toDF 0b11111#5 ∧
    decodeToken 0b11100101#8 = .litE0toEF 0b0101#4 ∧ decodeToken 0b11101111#8 = .litE0toEF 0b1111#4 ∧
    decodeToken 0b11110000#8 = .litF0toF3 0b00#2 ∧ decodeToken 0b11110011#8 = .litF0toF3 0b11#2 ∧
    decodeToken 0b11110100#8 = .litF4 ∧ decodeToken 0b11110101#8 = .tokF5 ∧
    decodeToken 0b11110110#8 = .tokF6 ∧ decodeToken 0b11110111#8 = .tokCrc ∧
    decodeToken 0b11111000#8 = .tokDam 0b00#2 ∧ decodeToken 0b11111011#8 = .tokDam 0b11#2 ∧
    decodeToken 0b11111100#8 = .tokIxam ∧ decodeToken 0b11111101#8 = .tokFd ∧
    decodeToken 0b11111110#8 = .tokIdam ∧ decodeToken 0b11111111#8 = .litFF := by decide

/-- Words of the opcode table, one for each width. -/
theorem test_decode_table_words :
    decodeTableWord 8 0x88 = some (.rdsec false true false false false) ∧
    decodeTableWord 16 0x5FF4 = some .rsec ∧ decodeTableWord 24 0x775FF8 = some (.wcmd 0x77#8) ∧
    decodeTableWord 16 0x1104 = some (.cru4 false) ∧ decodeTableWord 16 0x4000 = none := by decide

/-! ### The CRC unit (B1) -/

/-- B1.1, first row. -/
theorem test_crcInit_then_bit_zero :
    ok (andThen (exec (.crcInit 0xFFFF#16) disk) (exec (.crcUpdateBit false))) (·.crc == 0xEFDF#16) = true := by
  decide
/-- B1.1, second row. -/
theorem test_crcUpdateBit_one :
    ok (exec (.crcUpdateBit true) { disk with crc := 0xFFFF#16, crcReady := true }) (·.crc == 0xFFFE#16) =
      true := by decide
/-- B1.3: `FE` from 0xFFFF. -/
theorem test_crcUpdateByte :
    ok (exec (.crcUpdateByte 0xFE#8) { disk with crc := 0xFFFF#16, crcReady := true }) (·.crc == 0xEF21#16) =
      true := by decide
/-- R93 (`crc = 0x0000, b = 0` stays 0x0000) right after reset; it initialises nothing, so F11 still holds. -/
theorem test_crcUpdateBit_before_init :
    ok (exec (.crcUpdateBit false) State.reset) (fun t =>
      t.crc == 0x0000#16 && stepRefuses { t with pending := [.crcValue] } .crcNotInitialised) = true := by decide
/-- R91, and F11 (R340, U8). -/
theorem test_crcValue :
    ok (step { disk with crc := 0xE2C2#16, crcReady := true, pending := [.crcValue] }) (fun t =>
      t.result == .word 0xE2C2#16 && t.crc == 0xE2C2#16 && t.pending == []) = true ∧
    stepRefuses { disk with pending := [.crcValue] } .crcNotInitialised = true := by decide +kernel
/-- B1.3: "123456789". -/
theorem test_crcOver_check_value :
    answers (.crcOver 0xFFFF#16
      [0x31#8, 0x32#8, 0x33#8, 0x34#8, 0x35#8, 0x36#8, 0x37#8, 0x38#8, 0x39#8]) disk (.word 0x29B1#16) =
      true := by decide +kernel
/-- R100. -/
theorem test_crcAppend_id :
    answers (.crcAppend 0xFFFF#16 [0xFE#8, 0x00#8, 0x00#8, 0x01#8, 0x01#8]) disk
      (.bytes [0xFE#8, 0x00#8, 0x00#8, 0x01#8, 0x01#8, 0xC2#8, 0xE2#8]) = true := by decide +kernel
/-- B1.5: the ID CRC high byte changed. -/
theorem test_verifyId :
    answers (.verifyId ref0 view0) disk (.truth true) = true ∧
    answers (.verifyId ref0 view0) (withDisk params (corrupted 27 0x01#8)) (.truth false) = true := by
  decide +kernel
/-! A data field is too long for the kernel to run over it in one go: its CRC is computed in five parts. -/

theorem crcOver_append (p : Word16) (a b : List Byte) : crcOver p (a ++ b) = crcOver (crcOver p a) b :=
  List.foldl_append

theorem crc_of_parts (mark b : Byte) (c0 c1 c2 c3 c4 : Word16) (h0 : crcOver 0xFFFF#16 [mark] = c0)
    (h1 : crcOver c0 (List.replicate 32 b) = c1) (h2 : crcOver c1 (List.replicate 32 b) = c2)
    (h3 : crcOver c2 (List.replicate 32 b) = c3) (h4 : crcOver c3 (List.replicate 32 b) = c4) :
    crcOver 0xFFFF#16 (mark :: List.replicate 128 b) = c4 := by
  have e : mark :: List.replicate 128 b = [mark] ++ (List.replicate 32 b ++
      (List.replicate 32 b ++ (List.replicate 32 b ++ List.replicate 32 b))) := by rfl
  rw [e, crcOver_append, crcOver_append, crcOver_append, crcOver_append, h0, h1, h2, h3, h4]

/-- B1.3: `FB` and 128 x `E5`. -/
theorem test_crc_data_field : crcOver 0xFFFF#16 (0xFB#8 :: List.replicate 128 0xE5#8) = 0x5D30#16 := by
  apply crc_of_parts 0xFB#8 0xE5#8 49028#16 58502#16 3839#16 12095#16 <;> decide +kernel

theorem crc_deleted : crcOver 0xFFFF#16 (0xF8#8 :: List.replicate 128 0xE5#8) = 0x063D#16 := by
  apply crc_of_parts 0xF8#8 0xE5#8 36839#16 25283#16 34602#16 40272#16 <;> decide +kernel

theorem fieldCrcData_of {p : Params} {data : List Byte} {v : View} {l : List Byte} {c : Word16} (n : Nat)
    (hs : size? data v = some n) (hm : memRead data v.dataOff (1 + n) = some l)
    (hc : crcOver p.crcInitFm l = c) : fieldCrcData p .fm data v = some c := by
  simp [fieldCrcData, hs, hm, crcPreset, hc]

theorem verifyData_of {p : Params} {data : List Byte} {v : View} {c : Word16} {stored : List Byte} (n : Nat)
    (hs : size? data v = some n) (hf : fieldCrcData p .fm data v = some c)
    (hm : memRead data (v.dataOff + n + 1) 2 = some stored) :
    verifyData p .fm data v = some (decide (stored = crcBytes c), c) := by
  simp [verifyData, hs, hf, hm]

theorem verifyData_next {s : State} {r : TrackRef} {v : View} {t : Track} {a : Bool × Word16}
    (ht : s.track? r = some t) (hv : v ∈ t.sector) (hf : t.format = .fm)
    (h : verifyData s.cfg .fm t.data v = some a) :
    exec (.verifyData r v) s = .next (reply (.truth a.1) (leaveCrc a.2 s)) ∧
    exec (.sectorValidData r v) s = .next (reply (.truth a.1) (leaveCrc a.2 s)) := by
  simp [exec, execVerifyData, execSectorValidData, checkView, withView, withTrack, withDensity, orRefuse,
    TrackFormat.density?, ht, hv, hf, h]

theorem tiny_field (p : Params) (hp : p.crcInitFm = 0xFFFF#16) (mark : Byte) (a b : Byte) (c : Word16)
    (h : crcOver 0xFFFF#16 (mark :: List.replicate 128 0xE5#8) = c) :
    fieldCrcData p .fm (tinyWith mark a b) tinyView = some c := by
  apply fieldCrcData_of 128 (l := mark :: List.replicate 128 0xE5#8) rfl rfl
  rw [hp, h]

theorem tiny_verify (p : Params) (hp : p.crcInitFm = 0xFFFF#16) (mark : Byte) (a b : Byte) (c : Word16)
    (h : crcOver 0xFFFF#16 (mark :: List.replicate 128 0xE5#8) = c) :
    verifyData p .fm (tinyWith mark a b) tinyView =
      some (decide ([a, b] = crcBytes c), c) :=
  verifyData_of 128 rfl (tiny_field p hp mark a b c h) rfl

/-- R103 on the tiny track: the CRC 5D30, and a wrong one. -/
theorem test_verifyData :
    answers (.verifyData ref0 tinyView) (tinyDisk params tinyBytes) (.truth true) = true ∧
    answers (.verifyData ref0 tinyView) (tinyDisk params (tinyWith 0xFB#8 0x5D#8 0x31#8)) (.truth false) =
      true := by
  constructor
  · have h := tiny_verify params rfl 0xFB#8 0x5D#8 0x30#8 _ test_crc_data_field
    simp only [answers, (verifyData_next (s := tinyDisk params tinyBytes) (r := ref0) rfl
      (by decide) rfl h).1]
    decide +kernel
  · have h := tiny_verify params rfl 0xFB#8 0x5D#8 0x31#8 _ test_crc_data_field
    simp only [answers, (verifyData_next (s := tinyDisk params (tinyWith 0xFB#8 0x5D#8 0x31#8)) (r := ref0)
      rfl (by decide) rfl h).1]
    decide +kernel

theorem tiny_dataModified (a b : Byte) (dirty : Bool) :
    dataModified params .fm
        { tinyTrack (tinyWith 0xFB#8 a b) with dirty := dirty } tinyView =
      some ({ tinyTrack tinyBytes with dirty := true }, 0x5D30#16) := by
  have hs : size? (tinyWith 0xFB#8 a b) tinyView = some 128 := rfl
  have hf := tiny_field params rfl 0xFB#8 a b _ test_crc_data_field
  have hw : memWrite (tinyWith 0xFB#8 a b) (tinyView.dataOff + 128 + 1)
      (crcBytes 0x5D30#16) = some tinyBytes := rfl
  simp [dataModified, tinyTrack, hs, hf, hw]

theorem dataModified_next {s : State} {r : TrackRef} {v : View} {t : Track} {a : Track × Word16}
    (ht : s.track? r = some t) (hv : v ∈ t.sector) (hf : t.format = .fm)
    (h : dataModified s.cfg .fm t v = some a) :
    exec (.dataModified r v) s = .next (reply .nothing (leaveCrc a.2 (s.putTrack r a.1))) := by
  simp [exec, execDataModified, withView, withTrack, withDensity, orRefuse, TrackFormat.density?, ht, hv, hf, h]

/-- B1.3: `DataModified` stores the CRC 5D30 over a wrong one. -/
theorem test_dataModified :
    ok (exec (.dataModified ref0 tinyView)
      (tinyDisk params (tinyWith 0xFB#8 0x00#8 0x00#8))) (fun s =>
      s.track? ref0 == some { tinyTrack tinyBytes with dirty := true }) = true := by
  rw [dataModified_next (s := tinyDisk params (tinyWith 0xFB#8 0x00#8 0x00#8))
    (r := ref0) rfl (by decide) rfl (tiny_dataModified 0x00#8 0x00#8 false)]
  decide +kernel

/-! ### The bit-stream reader (B2) -/

/-- R110. -/
theorem test_newBitStream :
    ok (exec (.newBitStream [0xA5#8] 8 .msb false) disk) (fun s =>
      s.readers == [⟨[0xA5#8], 8, 0, false, .msb⟩] && s.result == .reader 0) = true := by decide
/-- F10. -/
theorem test_newBitStream_too_long :
    refuses (.newBitStream [0xA5#8] 9 .msb false) disk .bitStreamTooLong = true := by decide
/-- B2.1: `[01]` begins with 1 in the LSB variant, with 0 in the MSB variant. -/
theorem test_bitNext_orders :
    answers (.bitNext 0) (withBits [0x01#8] 8 .lsb false 0) (.bit (some true)) = true ∧
    answers (.bitNext 0) (withBits [0x01#8] 8 .msb false 0) (.bit (some false)) = true := by decide
/-- B2.2: the 15th physical bit is never delivered; one sample of a pair suffices. -/
theorem test_bitNext_skip :
    answers (.bitNext 0) (withBits [0xFF#8, 0xFF#8] 15 .msb true 14) (.bit none) = true ∧
    answers (.bitNext 0) (withBits [0x40#8] 8 .msb true 0) (.bit (some true)) = true := by decide
/-- B2.4. -/
theorem test_bitSeek_boundary :
    answers (.bitSeek 0 16) (withBits [0xA5#8, 0xA5#8] 16 .msb false 0) (.truth true) = true ∧
    ok (exec (.bitSeek 0 17) (withBits [0xA5#8, 0xA5#8] 16 .msb false 0)) (fun s =>
      s.result == .truth false && (s.readers.map (·.bitOffset)) == [16]) = true := by decide
/-- B2.4 in skip mode. -/
theorem test_bitSeek_skip :
    ok (exec (.bitSeek 0 8) (withBits [0xA5#8, 0xA5#8] 16 .msb true 0)) (fun s =>
      s.result == .truth true && (s.readers.map (·.bitOffset)) == [16]) = true ∧
    answers (.bitSeek 0 9) (withBits [0xA5#8, 0xA5#8] 16 .msb true 0) (.truth false) = true := by decide
/-- B2.1, fourth row, after five `next()`. -/
theorem test_bitPositions :
    answers (.bitPositions 0) (withBits [0xFF#8, 0xF0#8] 12 .msb false 5) (.positions 5 12 7) = true := by decide

/-! ### The sync detector (B3) -/

/-- B3.1. -/
theorem test_syncTestFm :
    answers (.syncTestFm 0xF57E#16 16 true 0) disk (.sync (some (0xC7#8, 0xFE#8))) = true ∧
    answers (.syncTestFm 0xF57B#16 16 true 0) disk (.sync none) = true ∧
    answers (.syncTestFm 0xF77A#16 16 false 3) disk (.sync (some (0xD7#8, 0xFC#8))) = true := by decide
/-- B3.1, last sentence. -/
theorem test_syncTestFm_filling : answers (.syncTestFm 0xF57E#16 15 true 0) disk (.sync none) = true := by
  decide
/-- B3.3. -/
theorem test_syncTestMfm :
    answers (.syncTestMfm 0xC489#16 16 false 3) disk (.sync (some (0x0A#8, 0xA1#8))) = true ∧
    answers (.syncTestMfm 0xD224#16 16 true 0) disk (.sync (some (0x14#8, 0xC2#8))) = true := by decide
/-- B3.3, the phase condition. -/
theorem test_syncTestMfm_phase :
    answers (.syncTestMfm 0x5224#16 16 false 4) disk (.sync (some (0x14#8, 0xC2#8))) = true ∧
    answers (.syncTestMfm 0x5224#16 16 false 5) disk (.sync none) = true := by decide
/-- B3.4. -/
theorem test_lostClockFm :
    answers (.lostClockFm 0x0000#16 5) disk (.truth true) = true ∧
    answers (.lostClockFm 0x0001#16 5) disk (.truth false) = true ∧
    answers (.lostClockFm 0x0000#16 6) disk (.truth false) = true := by decide
/-- B3.4: all eight triples at a data position, and a clock position. -/
theorem test_lostClockMfm :
    ([0x0002#16, 0x0001#16, 0x0004#16, 0x0005#16].all fun w =>
      answers (.lostClockMfm w 4) disk (.truth false)) = true ∧
    ([0x0000#16, 0x0003#16, 0x0006#16, 0x0007#16].all fun w =>
      answers (.lostClockMfm w 4) disk (.truth true)) = true ∧
    answers (.lostClockMfm 0x0000#16 3) disk (.truth false) = true := by decide

/-! ### The codec (B4 to B6) -/

/-- B4.1, and B4.5: a mark right after a mark. -/
theorem test_decode_fm :
    answers (.decode .fm (.bits (bitsOf 52 [0xAF#8, 0x57#8, 0xEA#8, 0xAA#8, 0xBF#8, 0xFF#8, 0xF0#8]))) disk
      (.fragments [frag 4 52 0xC7 [0xFE#8, 0x01#8, 0xFF#8]]) = true ∧
    answers (.decode .fm (.bits (bitsOf 32 [0xF5#8, 0x7E#8, 0xF5#8, 0x6F#8]))) disk
      (.fragments [frag 0 16 0xC7 [0xFE#8], frag 16 32 0xC7 [0xFB#8]]) = true := by decide +kernel
/-- B4.2, from a reader. -/
theorem test_decode_mfm_reader :
    answers (.decode .mfm (.reader 0))
      (withBits [0xAA#8, 0xAA#8, 0xAA#8, 0xAA#8, 0x44#8, 0x89#8, 0x44#8, 0x89#8, 0x44#8, 0x89#8, 0x55#8,
        0x54#8, 0x92#8, 0x54#8] 112 .msb false 0)
      (.fragments [frag 32 48 0x0A [0xA1#8], frag 48 64 0x0A [0xA1#8],
        frag 64 112 0x0A [0xA1#8, 0xFE#8, 0x4E#8]]) = true := by decide +kernel
/-- B6.3 and B6.8. -/
theorem test_encode_fm :
    answers (.encode .fm [frag 4 52 0xC7 [0xFE#8, 0x01#8, 0xFF#8]]) disk
      (.raw (bitsOf 52 [0xAF#8, 0x57#8, 0xEA#8, 0xAA#8, 0xBF#8, 0xFF#8, 0xF0#8])) = true ∧
    refuses (.encode .fm [frag 0 32 0xC7 [0xFE#8, 0x00#8], frag 16 48 0xC7 [0xFB#8, 0x00#8]]) disk
      .badFragments = true := by decide +kernel
/-- B6.2. -/
theorem test_encode_mfm :
    answers (.encode .mfm [frag 0 32 (-1) [0x00#8, 0x00#8], frag 32 48 0x0A [0xA1#8],
        frag 48 64 0x0A [0xA1#8], frag 64 112 0x0A [0xA1#8, 0xFE#8, 0x4E#8]]) disk
      (.raw (bitsOf 112 [0xAA#8, 0xAA#8, 0xAA#8, 0xAA#8, 0x44#8, 0x89#8, 0x44#8, 0x89#8, 0x44#8, 0x89#8,
        0x55#8, 0x54#8, 0x92#8, 0x54#8])) = true := by decide +kernel

/-! ### The sector framer (B7) -/

/-- B7.1, and R175: a view that is not in the list. -/
theorem test_sectorSize :
    answers (.sectorSize ref0 view0) disk (.number 256) = true ∧
    refuses (.sectorSize ref0 ⟨22, 47⟩) disk .staleView = true := by decide +kernel
/-- B7.2. -/
theorem test_sectorMatches :
    answers (.sectorMatches ref0 view0 (-1) (-1) 1) disk (.truth true) = true ∧
    answers (.sectorMatches ref0 view0 0 1 1) disk (.truth false) = true := by decide +kernel
/-- B7.4. -/
theorem test_sectorRead :
    answers (.sectorRead ref0 view0) disk (.bytes (List.replicate 256 0xE5#8)) = true := by decide +kernel
/-- B7.4: the ID stays valid where a data byte is corrupted. -/
theorem test_sectorValidId :
    answers (.sectorValidId ref0 view0) (withDisk params (corrupted 56 0x01#8)) (.truth true) = true ∧
    answers (.sectorValidId ref0 view0) (withDisk params (corrupted 28 0x01#8)) (.truth false) = true := by
  decide +kernel
/-- R181 on the tiny track, with a wrong CRC stored. -/
theorem test_sectorValidData :
    answers (.sectorValidData ref0 tinyView) (tinyDisk params (tinyWith 0xFB#8 0x5D#8 0x31#8))
      (.truth false) = true := by
  have h := tiny_verify params rfl 0xFB#8 0x5D#8 0x31#8 _ test_crc_data_field
  simp only [answers, (verifyData_next (s := tinyDisk params (tinyWith 0xFB#8 0x5D#8 0x31#8)) (r := ref0)
      rfl (by decide) rfl h).2]
  decide +kernel
theorem sectorWrite_next {s : State} {r : TrackRef} {v : View} {t : Track} {mark : Byte} {buf : List Byte}
    {n : Nat} {old data : List Byte} {a : Track × Word16} (ht : s.track? r = some t) (hv : v ∈ t.sector)
    (hf : t.format = .fm) (hs : size? t.data v = some n) (ho : memRead t.data v.dataOff (1 + n) = some old)
    (hn : sectorImage n mark buf ≠ old) (hw : memWrite t.data v.dataOff (sectorImage n mark buf) = some data)
    (h : dataModified s.cfg .fm { t with data := data } v = some a) :
    exec (.sectorWrite r v mark buf) s = .next (leaveCrc a.2 ((reply .nothing s).putTrack r a.1)) := by
  have ht' : (reply .nothing s).track? r = some t := ht
  have hw' : sectorWrite (reply .nothing s).cfg .fm t v mark buf = some (a.1, some a.2) := by
    change sectorWrite s.cfg .fm t v mark buf = _
    simp only [sectorWrite, hs, ho, hw, if_neg hn, h]
  simp only [exec, execSectorWrite, writeSectorAt, withView, withTrack, withDensity, orRefuse,
    TrackFormat.density?, ht', if_pos hv, hf, hw']
  rfl

/-- R182, B1.3: 128 x E5 written over other bytes are stored, with the CRC 5D30. -/
theorem test_sectorWrite :
    ok (exec (.sectorWrite ref0 tinyView 0xFB#8 (List.replicate 128 0xE5#8))
      (tinyDisk params ((tinyBytes.set 8 0x00#8).set 136 0x00#8))) (fun s =>
      s.track? ref0 == some { tinyTrack tinyBytes with dirty := true }) = true := by
  rw [sectorWrite_next (s := tinyDisk params ((tinyBytes.set 8 0x00#8).set 136 0x00#8)) (n := 128)
    (old := 0xFB#8 :: 0x00#8 :: List.replicate 127 0xE5#8)
    (data := tinyWith 0xFB#8 0x00#8 0x30#8)
    (r := ref0) rfl (by decide) rfl rfl (by decide +kernel) (by decide +kernel) (by decide +kernel)
    (tiny_dataModified 0x00#8 0x30#8 false)]
  decide +kernel
/-- B7.3, last row: nothing changed, so the wrong CRC stays. -/
theorem test_sectorWrite_unchanged :
    ok (exec (.sectorWrite ref0 view0 0xFB#8 (List.replicate 256 0xE5#8))
      (withDisk params (corrupted 303 0xFF#8))) (fun s =>
      readByte s ref0 303 == some 0x5B#8 && (s.track? ref0).map (·.dirty) == some false) = true := by
  decide +kernel

/-! ### The track buffer (B8) -/

/-- B8.1, the MFM ID row. -/
theorem test_trackWrite_mfm :
    ok (exec (.trackWrite ref0 .mfm
        [0xF5#8, 0xF5#8, 0xF5#8, 0xFE#8, 0x00#8, 0x00#8, 0x01#8, 0x01#8, 0xF7#8]) disk) (fun s =>
      (s.track? ref0).map (fun t => (t.data, t.clock, t.dirty)) ==
        some ([0xA1#8, 0xA1#8, 0xA1#8, 0xFE#8, 0x00#8, 0x00#8, 0x01#8, 0x01#8, 0xFA#8, 0x0C#8], [24], true)) =
      true := by decide +kernel
/-- B8.1: `F5 F6 FF F4`, all literals in FM; the format `Unknown`. -/
theorem test_trackWrite_fm_literals :
    ok (exec (.trackWrite ref0 .fm [0xF5#8, 0xF6#8, 0xFF#8, 0xF4#8]) disk) (fun s =>
      (s.track? ref0).map (fun t => (t.data, t.clock, t.sector)) ==
        some ([0xF5#8, 0xF6#8, 0xFF#8, 0xF4#8], [], [])) = true ∧
    refuses (.trackWrite ref0 .unknown []) disk .unknownFormat = true := by decide +kernel
/-- The example of R204. -/
theorem test_trackRawWrite :
    ok (exec (.trackRawWrite ref0 .fm [176, 368] bytes214) (withDisk params Track.blank)) (fun s =>
      s.track? ref0 == some track214) = true := by decide +kernel
/-- F9 and F13. -/
theorem test_trackRawWrite_refused :
    refuses (.trackRawWrite ref0 .fm [8, 7] []) disk .clockNotAscending = true ∧
    refuses (.trackRawWrite ref0 .fm [] []) (reading .readTrack 2) .loaderDuringTransfer = true := by
  decide +kernel
/-- A stale list is rebuilt (R205). -/
theorem test_trackLocateSectors :
    ok (exec (.trackLocateSectors ref0) (withDisk params { track214 with sector := [] })) (fun s =>
      s.track? ref0 == some track214) = true := by decide +kernel
/-- The example of R210. -/
theorem test_trackGetSector :
    answers (.trackGetSector ref0 0 (-1) 1) disk (.view (some view0)) = true ∧
    answers (.trackGetSector ref0 0 (-1) 2) disk (.view none) = true := by decide +kernel

/-- The buffers of B8.3: 0xFF with an ID at 10, and a data mark. -/
def scanBuffer (n : Nat) (size : Byte) (at_ : Nat) (mark : Byte) : List Byte :=
  (((((List.replicate n 0xFF#8).set 10 0xFE#8).set 11 0x00#8).set 12 0x00#8).set 13 0x01#8).set 14 size |>.set
    at_ mark

/-- B8.3: distances 6, 7, 33, 34 in FM, 45 and 46 in MFM; the end of the buffer. -/
theorem test_scan_distances :
    ([(6, []), (7, [(⟨10, 17⟩ : View)]), (33, [⟨10, 43⟩]), (34, [])].all fun x =>
      locateSectors params .fm [80, 8 * (10 + x.1)] (scanBuffer 400 0x00#8 (10 + x.1) 0xFB#8) == x.2) = true ∧
    ([(45, [(⟨10, 55⟩ : View)]), (46, [])].all fun x =>
      locateSectors params .mfm [80, 8 * (10 + x.1)] (scanBuffer 400 0x00#8 (10 + x.1) 0xFB#8) == x.2) = true ∧
    locateSectors params .fm [80, 272] (scanBuffer 1061 0x03#8 34 0xFB#8) = [⟨10, 34⟩] ∧
    locateSectors params .fm [80, 272] (scanBuffer 1060 0x03#8 34 0xFB#8) = [] := by decide +kernel

/-! ### Tokens (R199 to R202; the CRC values of B1 and B8.1) -/

/-- B8.1: the running CRC after `12` is D383. -/
theorem test_lit00to7F : walked (.lit00to7F 0x12#7) (walking .fm 0xFFFF#16) [0x12#8] [] 0xD383#16 = true := by
  decide +kernel
/-- From 0000, `80` gives `T[80] = 9188` (B1.2). -/
theorem test_lit80toBF : walked (.lit80toBF 0x00#6) (walking .fm 0x0000#16) [0x80#8] [] 0x9188#16 = true := by
  decide +kernel
/-- From 0000, `C1` gives `T[C1]` of R96. -/
theorem test_litC0toDF : walked (.litC0toDF 0x01#5) (walking .mfm 0x0000#16) [0xC1#8] [] 0xC96D#16 = true := by
  decide +kernel
/-- From 0000, `E5` gives `T[E5]` of R96. -/
theorem test_litE0toEF : walked (.litE0toEF 0x5#4) (walking .fm 0x0000#16) [0xE5#8] [] 0xAD8B#16 = true := by
  decide +kernel
/-- From 0000, `F3` gives `T[F3]` of R96. -/
theorem test_litF0toF3 : walked (.litF0toF3 0x3#2) (walking .fm 0x0000#16) [0xF3#8] [] 0xDF7C#16 = true := by
  decide +kernel
/-- From 0000, `F4` gives `T[F4]` of R96. -/
theorem test_litF4 : walked .litF4 (walking .fm 0x0000#16) [0xF4#8] [] 0xAF9B#16 = true := by decide +kernel
/-- A literal in FM; in MFM the row `F5 F7` of B8.1: `A1`, then the register is 192A. -/
theorem test_tokF5 :
    walked .tokF5 (walking .fm 0x0000#16) [0xF5#8] [] 0xBFBA#16 = true ∧
    walked .tokF5 (walking .mfm 0xCDB4#16) [0xA1#8] [] 0x192A#16 = true := by decide +kernel
/-- A literal in FM; `C2` in MFM, from 0000 with `T[C2]` of R96. -/
theorem test_tokF6 :
    walked .tokF6 (walking .fm 0x0000#16) [0xF6#8] [] 0x8FD9#16 = true ∧
    walked .tokF6 (walking .mfm 0x0000#16) [0xC2#8] [] 0xF90E#16 = true := by decide +kernel
/-- R200: the register is stored high byte first and runs on to 0000. -/
theorem test_tokCrc : walked .tokCrc (walking .fm 0xAC75#16) [0xAC#8, 0x75#8] [] 0x0000#16 = true := by
  decide +kernel
/-- B1.3: the CRC starts again at the mark, `FB` gives BF84 and `F8` 8FE7. -/
theorem test_tokDam :
    walked (.tokDam 0b11#2) (walking .fm 0x1234#16) [0xFB#8] [32] 0xBF84#16 = true ∧
    walked (.tokDam 0b00#2) (walking .fm 0x1234#16) [0xF8#8] [32] 0x8FE7#16 = true := by decide +kernel
/-- R95 with `T[03]`: FF00 xor 3063. -/
theorem test_tokIxam : walked .tokIxam (walking .fm 0x1234#16) [0xFC#8] [32] 0xCF63#16 = true := by
  decide +kernel
/-- R95 with `T[02]`: FF00 xor 2042. -/
theorem test_tokFd : walked .tokFd (walking .fm 0x1234#16) [0xFD#8] [32] 0xDF42#16 = true := by decide +kernel
/-- B1.3: `FE` gives EF21 in FM and B230 in MFM. -/
theorem test_tokIdam :
    walked .tokIdam (walking .fm 0x1234#16) [0xFE#8] [32] 0xEF21#16 = true ∧
    walked .tokIdam (walking .mfm 0x1234#16) [0xFE#8] [32] 0xB230#16 = true := by decide +kernel
/-- B1.3: `FF` from FFFF gives FF00, with no clock entry. -/
theorem test_litFF : walked .litFF (walking .fm 0xFFFF#16) [0xFF#8] [] 0xFF00#16 = true := by decide +kernel

/-! ### Ports and latch (B11, B12) -/

/-- B11: inside and after the index window of a Type I command at clock 5000. -/
theorem test_rsta_index :
    answers .rsta { disk with statusRegister := 0x04#8, startClock := 5000, now := 5999 } (.bus 0xF9#8) = true ∧
    answers .rsta { disk with statusRegister := 0x04#8, startClock := 5000, now := 6000 } (.bus 0xFB#8) =
      true := by decide +kernel
/-- B11: Type II status shows no index. -/
theorem test_rsta_typeII :
    answers .rsta { disk with statusRegister := 0x10#8, statusTypeI := false } (.bus 0xEF#8) = true := by
  decide +kernel
/-- B12. -/
theorem test_rtrk : answers .rtrk { disk with trackRegister := 0xFF#8 } (.bus 0x00#8) = true := by
  decide +kernel
/-- B12. -/
theorem test_rsec : answers .rsec { disk with sectorRegister := 0x01#8 } (.bus 0xFE#8) = true := by
  decide +kernel
/-- P1: a byte in the middle of a transfer, and the last one. -/
theorem test_rdat_transfer :
    ok (exec .rdat (reading .readSector 2)) (fun t =>
      t.result == .bus 0x1A#8 && t.bytesLeft == 1 && t.dataRegister == 0xE5#8 &&
        t.statusRegister == 0x03#8 && t.cmdInProgress == .readSector) = true ∧
    ok (exec .rdat (reading .readSector 1)) (fun t =>
      t.result == .bus 0x1A#8 && t.bytesLeft == 0 && t.statusRegister == 0x00#8 &&
        t.cmdInProgress == .none) = true := by decide +kernel
/-- B12, and B10: no read of a write transfer's buffer. -/
theorem test_rdat_register :
    answers .rdat { disk with dataRegister := 0x55#8 } (.bus 0xAA#8) = true ∧
    ok (exec .rdat (writing .writeSector (some view0) 256 256)) (fun t =>
      t.result == .bus 0xFF#8 && t.bytesLeft == 256) = true := by decide +kernel
/-- B12 and B10: bus 77 is command 88, which finds no sector 0; bus FF is command 00. -/
theorem test_wcmd :
    ok (exec (.wcmd 0x77#8) disk) (fun t => t.statusRegister == 0x10#8 && t.statusTypeI == false) = true ∧
    moved (exec (.wcmd 0xFF#8) disk) 0 0x00#8 .outward 0x04#8 = true := by decide +kernel
/-- B12. -/
theorem test_wtrk : ok (exec (.wtrk 0x00#8) disk) (·.trackRegister == 0xFF#8) = true := by decide +kernel
/-- B12. -/
theorem test_wsec : ok (exec (.wsec 0xFE#8) disk) (·.sectorRegister == 0x01#8) = true := by decide +kernel
/-- P2: the byte goes to its place, and the data register takes it. -/
theorem test_wdat_transfer :
    ok (exec (.wdat 0xEE#8) (writing .writeSector (some view0) 256 255)) (fun t =>
      t.dataBuffer[1]? == some 0x11#8 && t.bytesLeft == 254 && t.dataRegister == 0x11#8 &&
        t.drives == disk.drives && t.images == disk.images) = true := by decide +kernel
/-- The last byte commits: a Write Track of the row `FB F7` of B8.1. -/
theorem test_wdat_commit :
    ok (exec (.wdat 0x08#8) { writing .writeTrack none 2 1 with dataBuffer := [0xFB#8, 0x00#8] }) (fun t =>
      (t.track? ref0).map (fun x => (x.data, x.clock, x.dirty)) == some ([0xFB#8, 0xBF#8, 0x84#8], [0], true) &&
        t.cmdInProgress == .none && t.statusRegister == 0x00#8) = true := by decide +kernel

/-- B12: the latch after one write to a latch of zeros, and where several drives are selected. -/
theorem test_cru0 : ok (exec (.cru0 true) State.reset) (·.hardwareBits == 0x01#8) = true := by decide
theorem test_cru1 : ok (exec (.cru1 true) State.reset) (·.hardwareBits == 0x02#8) = true := by decide
theorem test_cru2 : ok (exec (.cru2 true) State.reset) (·.hardwareBits == 0x04#8) = true := by decide
theorem test_cru3 :
    moved (andThen (exec (.cru3 true) disk) (exec (.restore false false 0#2))) 0 0x00#8 .outward 0x24#8 = true := by
  decide +kernel
theorem test_cru4 :
    ok (exec (.cru4 true) State.reset) (fun t => t.hardwareBits == 0x10#8 && t.driveSelect == 1) = true ∧
    ok (exec (.cru4 false) disk) (fun t => t.hardwareBits == 0x00#8 && t.driveSelect == 0) = true := by
  decide +kernel
theorem test_cru5 :
    ok (exec (.cru5 true) disk) (fun t => t.hardwareBits == 0x30#8 && t.driveSelect == 1) = true := by
  decide +kernel
theorem test_cru6 :
    ok (exec (.cru6 true) State.reset) (fun t => t.hardwareBits == 0x40#8 && t.driveSelect == 3) = true := by
  decide
theorem test_cru7 :
    ok (exec (.cru7 true) State.reset) (fun t => t.hardwareBits == 0x80#8 && t.headSelect == 1#1) = true := by
  decide

/-! ### Commands (B9, B10) -/

/-- B9: a corrupted ID CRC, and no drive selected. -/
theorem test_restore_verify :
    moved (exec (.restore false true 0#2) (withDisk params (corrupted 27 0x01#8))) 0 0x00#8 .outward 0x1C#8 =
      true ∧
    moved (exec (.restore false true 0#2) (State.resetWith params)) 0 0x00#8 .outward 0x14#8 = true := by
  decide +kernel
/-- B9: write-protected. -/
theorem test_restore_protected :
    moved (exec (.restore false false 0#2) protectedDisk) 0 0x00#8 .outward 0x44#8 = true := by decide +kernel
/-- B9: `WDAT 1E; WCMD 10`, then `WDAT 0C; WCMD 10`. -/
theorem test_seek :
    moved (exec (.seek false false 0#2) { disk with dataRegister := 0x1E#8 }) 30 0x1E#8 .inward 0x00#8 = true ∧
    moved (exec (.seek false false 0#2)
      { disk with trackSelect := 30, trackRegister := 0x1E#8, dataRegister := 0x0C#8 }) 12 0x0C#8 .outward
      0x00#8 = true := by decide +kernel
/-- B9: the seek of hazard H7. -/
theorem test_seek_clamped :
    moved (exec (.seek false true 0#2) { disk with dataRegister := 0x56#8 }) 79 0x56#8 .inward 0x10#8 = true := by
  decide +kernel
/-- B9: Step without and with update. -/
theorem test_step :
    moved (exec (.step false false false 0#2) { disk with trackSelect := 12, trackRegister := 0x0C#8 })
      11 0x0C#8 .outward 0x00#8 = true ∧
    moved (exec (.step true false false 0#2) { disk with trackSelect := 11, trackRegister := 0x0C#8 })
      10 0x0B#8 .outward 0x00#8 = true := by decide +kernel
/-- B9: the track register saturates at 255. -/
theorem test_stepin :
    moved (exec (.stepin true false false 0#2) { disk with trackRegister := 0xFF#8 }) 1 0xFF#8 .inward 0x00#8 =
      true := by decide +kernel
/-- B9: both clamp at 0. -/
theorem test_stepout :
    moved (exec (.stepout true false false 0#2) disk) 0 0x00#8 .outward 0x04#8 = true := by decide +kernel
/-- B9: Force Interrupt during a Read Sector with a bad CRC. -/
theorem test_forceint :
    ok (exec (.forceint 0#4) { reading .readSector 4 with statusRegister := 0x0B#8 }) (fun t =>
      t.statusRegister == 0x08#8 && t.cmdInProgress == .none && t.bytesLeft == 4 && t.anomalies == 1) = true := by
  decide +kernel
theorem rdsec_next {s s0 : State} {t : Track} {v : View} {mark : Byte} {buf : List Byte}
    {a : Bool × Word16} (h0 : s.timedOut = false) (hs : commandWrite false s = s0)
    (hl : lookup s0 = some (t, v)) (hf : t.format = .fm) (hm : t.data[v.dataOff]? = some mark)
    (hb : sectorRead t.data v = some buf) (h : verifyData s0.cfg .fm t.data v = some a) :
    exec (.rdsec false true false false false) s = .next (stageRead .readSector buf (reportCheck a.1
      (leaveCrc a.2
        { s0 with dataMark := mark, statusRegister := reportMark s0.cfg mark s0.statusRegister }))) := by
  simp [exec, execRdsec, access, andThen, checkRevolution, h0, cmdReadSector, hs, hl, withDensity, orRefuse, hf,
    TrackFormat.density?, dataMark?, hm, hb, h]

/-- B10 with the tiny sector: a good one, and one with a wrong CRC. -/
theorem test_rdsec :
    ok (exec (.rdsec false true false false false) (tinyDisk params (tinyWith 0xFB#8 0x5D#8 0x30#8))) (fun t =>
        t.statusRegister == 0x03#8 && t.bytesLeft == 128 && t.dataMark == 0xFB#8) = true ∧
    ok (exec (.rdsec false true false false false) (tinyDisk params (tinyWith 0xFB#8 0x5D#8 0x31#8))) (fun t =>
      t.statusRegister == 0x0B#8 && t.bytesLeft == 128) = true := by
  constructor
  · rw [rdsec_next (s := tinyDisk params (tinyWith 0xFB#8 0x5D#8 0x30#8))
      (v := tinyView) (mark := 0xFB#8) (buf := List.replicate 128 0xE5#8)
      (t := tinyTrack (tinyWith 0xFB#8 0x5D#8 0x30#8)) rfl rfl
      (by decide +kernel) rfl rfl (by decide +kernel)
      (tiny_verify params rfl 0xFB#8 0x5D#8 0x30#8 _ test_crc_data_field)]
    decide +kernel
  · rw [rdsec_next (s := tinyDisk params (tinyWith 0xFB#8 0x5D#8 0x31#8))
      (v := tinyView) (mark := 0xFB#8) (buf := List.replicate 128 0xE5#8)
      (t := tinyTrack (tinyWith 0xFB#8 0x5D#8 0x31#8)) rfl rfl
      (by decide +kernel) rfl rfl (by decide +kernel)
      (tiny_verify params rfl 0xFB#8 0x5D#8 0x31#8 _ test_crc_data_field)]
    decide +kernel
/-- R71, R72: a deleted mark in both variants; its CRC is wrong here (R274). -/
theorem test_rdsec_deleted :
    ok (exec (.rdsec false true false false false) (tinyDisk params (tinyWith 0xF8#8 0x00#8 0x00#8)))
      (·.statusRegister == 0x6B#8) = true ∧
    ok (exec (.rdsec false true false false false) (tinyDisk paramsFD179x (tinyWith 0xF8#8 0x00#8 0x00#8)))
      (·.statusRegister == 0x2B#8) = true := by
  constructor
  · rw [rdsec_next (s := tinyDisk params (tinyWith 0xF8#8 0x00#8 0x00#8))
      (v := tinyView) (mark := 0xF8#8) (buf := List.replicate 128 0xE5#8)
      (t := tinyTrack (tinyWith 0xF8#8 0x00#8 0x00#8)) rfl rfl
      (by decide +kernel) rfl rfl (by decide +kernel)
      (tiny_verify params rfl 0xF8#8 0x00#8 0x00#8 _ crc_deleted)]
    decide +kernel
  · rw [rdsec_next (s := tinyDisk paramsFD179x (tinyWith 0xF8#8 0x00#8 0x00#8))
      (v := tinyView) (mark := 0xF8#8) (buf := List.replicate 128 0xE5#8)
      (t := tinyTrack (tinyWith 0xF8#8 0x00#8 0x00#8)) rfl rfl
      (by decide +kernel) rfl rfl (by decide +kernel)
      (tiny_verify paramsFD179x rfl 0xF8#8 0x00#8 0x00#8 _ crc_deleted)]
    decide +kernel
/-- B10: `WCMD A9` in both variants. -/
theorem test_wrsec :
    ok (exec (.wrsec false true false false true) (sector1 params track214)) (fun t =>
      t.dataMark == 0xFA#8 && t.bytesLeft == 256 && t.xferTarget == some ⟨ref0, some view0⟩) = true ∧
    ok (exec (.wrsec false true false false true) (sector1 paramsFD179x track214))
      (·.dataMark == 0xF8#8) = true := by decide +kernel
/-- P4, and B10: no such sector. -/
theorem test_wrsec_not_staged :
    ok (exec (.wrsec false true false false false) protectedDisk) (fun t =>
      t.statusRegister == 0x40#8 && t.cmdInProgress == .none && t.dataMark == 0xFB#8) = true ∧
    ok (exec (.wrsec false true false false false) disk) (·.statusRegister == 0x10#8) = true := by decide +kernel
/-- B10: a corrupted ID CRC. -/
theorem test_rdaddr :
    ok (exec (.rdaddr 0#4) (withDisk params (corrupted 27 0x01#8))) (fun t =>
      t.statusRegister == 0x0B#8 && t.dataBuffer == [0x00#8, 0x00#8, 0x01#8, 0x01#8, 0xC3#8, 0xE2#8]) = true := by
  decide +kernel
/-- B10: cylinder 0, and an unformatted track; D45: an `Unknown` track with bytes in it. -/
theorem test_rdtrk :
    ok (exec (.rdtrk 0#4) disk) (fun t => t.statusRegister == 0x03#8 && t.bytesLeft == 402) = true ∧
    ok (exec (.rdtrk 0#4) (withDisk params Track.blank)) (·.statusRegister == 0x10#8) = true ∧
    ok (exec (.rdtrk 0#4) (withDisk params { track214 with format := .unknown, sector := [] }))
      (fun t => t.statusRegister == 0x10#8 && t.cmdInProgress == .none) = true := by
  decide +kernel
/-- R5: another status layout and another head-load bit are followed. -/
theorem test_status_layout :
    paramsOther.wf = true ∧
    ok (exec (.rdtrk 0#4) (State.resetWith paramsOther)) (·.statusRegister == 0x08#8) = true ∧
    ok (exec (.rdtrk 0#4) (withDisk paramsOther track214)) (·.statusRegister == 0xC0#8) = true ∧
    ok (exec (.restore false false 0#2) { withDisk paramsOther track214 with hardwareBits := 0x14#8 })
      (·.statusRegister == 0x24#8) = true ∧
    ok (exec .rsta (withDisk paramsOther track214)) (·.result == .bus 0xBF#8) = true := by decide +kernel
/-- P5, and P4: write-protected. -/
theorem test_wrtrk :
    ok (exec (.wrtrk 0#4) (withDisk { params with trackBytesFm := 400 } track214)) (fun t =>
      t.statusRegister == 0x03#8 && t.bytesLeft == 400 && t.dataBuffer == List.replicate 400 0x00#8) = true ∧
    ok (exec (.wrtrk 0#4) protectedDisk) (·.statusRegister == 0x40#8) = true := by decide +kernel
/-- B11: a Write Track of which nothing was written is committed empty before the read. -/
theorem test_revolution_write_track :
    ok (exec .rtrk { writing .writeTrack none 400 400 with startClock := 10000, now := 610000 }) (fun t =>
      t.track? ref0 == some { track214 with dirty := true, clock := [], data := [], sector := [] } &&
        t.statusRegister == 0x00#8 && t.result == .bus 0xFF#8) = true ∧
    ok (exec .rtrk { writing .writeTrack none 400 400 with startClock := 10000, now := 609999 })
      (·.statusRegister == 0x03#8) = true := by decide +kernel

/-! ### Reset and environment -/

/-- R330, and B12: the status port reads bus FF after it. -/
theorem test_reset :
    ok (andThen (exec .reset (reading .readSector 2)) (exec .rsta)) (fun t =>
      t.result == .bus 0xFF#8 && t.cmdInProgress == .none && t.dataMark == 0xFB#8 && t.drives == disk.drives &&
        t.images == disk.images) = true := by decide +kernel
/-- R335: an image with a stale sector list is refused, a sound one is inserted. -/
theorem test_insert :
    ok (step { State.resetWith params with pending := [.insert 1 (.new (image track214))] }) (fun t =>
      t.drives == disk.drives && t.images == disk.images && t.pending == []) = true ∧
    stepRefuses
      { State.resetWith params with pending := [.insert 1 (.new (image { track214 with sector := [] }))] }
      .badImage = true := by decide +kernel
/-- R334. -/
theorem test_eject :
    ok (step { disk with pending := [.eject 1] }) (fun t =>
      t.drives == (State.resetWith params).drives && t.track? ref0 == none) = true ∧
    stepRefuses { reading .readSector 2 with pending := [.eject 1] } .driveInUse = true := by decide +kernel
/-- R20: a write through drive 1 is read through drive 2, which refers to the same image, and it is still
there when the image, ejected from both, is in drive 3. -/
theorem test_one_image :
    ok (andThen (step { disk with pending := [.insert 2 (.known 0)] })
      (exec (.trackRawWrite ref0 .unknown [] [0x12#8]))) (fun t =>
        readByte t ⟨2, 0, 0⟩ 0 == some 0x12#8 &&
          ok (andThen (andThen (step { t with pending := [.eject 1, .eject 2, .insert 3 (.known 0)] }) step) step)
            (fun u => readByte u ⟨1, 0, 0⟩ 0 == none && readByte u ⟨3, 0, 0⟩ 0 == some 0x12#8)) = true := by
  decide +kernel
/-- R80: the clock may stay and may not decrease. -/
theorem test_clock :
    ok (step { disk with now := 5, pending := [.clockIs 5] }) (·.now == 5) = true ∧
    stepRefuses { disk with now := 5, pending := [.clockIs 4] } .clockDecreases = true := by decide +kernel
/-- A step from reset runs the word it was given: the status port (bus FF, B12), and CRU bit 4. -/
theorem test_step_from_reset :
    ok (step (State.reset.withFetchWord 16 0x5FF0)) (·.result == .bus 0xFF#8) = true ∧
    ok (step (State.reset.withFetchWord 24 0x011104)) (·.driveSelect == 1) = true := by decide
/-- The core is this machine. -/
theorem test_core_step : Sys2Proof.core.step = Sys2Proof.Machine.step := rfl

/-! ### Witnesses: states and operands that meet the hypotheses of the obligations -/

/-- A Write Track with one byte to come: the two bytes of its buffer. -/
def lastByte : State := { writing .writeTrack none 2 1 with dataBuffer := [0xFB#8, 0x00#8] }

/-- A Write Sector with one byte to come that changes nothing. -/
def lastSectorByte : State :=
  { tinyDisk params tinyBytes with
    dataBuffer := List.replicate 127 0xE5#8 ++ [0x00#8], bytesExpected := 128, bytesLeft := 1
    cmdInProgress := .writeSector, xferTarget := some ⟨ref0, some tinyView⟩
    statusRegister := 0x03#8, statusTypeI := false, xferDrive := 1 }

theorem witness_EncodeDecodeRoundTrip :
    PortMap.wf { Config.defaultPorts with cruBase := 0xFFF8#16 } = true ∧ (Instr.cru7 true).format ≠ .unit := by
  decide

theorem witness_CommandMapPartition :
    (Cmd.writeTrack, ((0xF0#8, 0xF0#8) : Byte × Byte)) ∈ ([(.restore, (0x00#8, 0xF0#8)),
      (.seek, (0x10#8, 0xF0#8)), (.step, (0x20#8, 0xE0#8)),
      (.stepIn, (0x40#8, 0xE0#8)), (.stepOut, (0x60#8, 0xE0#8)), (.readSector, (0x80#8, 0xE0#8)),
      (.writeSector, (0xA0#8, 0xE0#8)), (.readAddress, (0xC0#8, 0xF0#8)),
      (.forceInterrupt, (0xD0#8, 0xF0#8)), (.readTrack, (0xE0#8, 0xF0#8)),
      (.writeTrack, (0xF0#8, 0xF0#8))] : List (Cmd × Byte × Byte)) := by decide

theorem witness_PortSelection : Config.defaultPorts.wf = true := by decide

theorem witness_StepRunsDecoded :
    (∃ (s : State) (a : HostAccess) (rest : List Event) (i : Instr),
      s.pending = .access a :: rest ∧ decode s.cfg.ports a = .ok i) ∧
    (∃ (s : State) (i : Instr) (rest : List Event), s.pending = .call i :: rest) ∧
    (∃ (s : State) (nbits w : Nat) (i : Instr),
      decode s.cfg.ports (tableAccess s.cfg.ports nbits w) = .ok i) :=
  ⟨⟨{ disk with pending := [.access (.memRead 0x5FF0#16), .call .reset] }, _, _, .rsta, rfl, by decide⟩,
    ⟨{ disk with pending := [.call .reset] }, _, _, rfl⟩, ⟨disk, 8, 0x88, _, rfl⟩⟩

theorem witness_StepWithoutOperation :
    disk.pending = [] ∧
    decode disk.cfg.ports (.memRead 0x5FF8#16) = .error .notAPort ∧
    decode disk.cfg.ports (.cruWrite 0x1108#16 true) = .error .notACruBit ∧
    (∃ (s : State) (a : HostAccess) (rest : List Event), s.pending = .access a :: rest ∧
      decode s.cfg.ports a = .error .notAPort) ∧
    (∃ (s : State) (a : Word16) (rest : List Event), s.pending = .access (.cruRead a) :: rest) ∧
    (∃ (s : State) (t : Nat) (rest : List Event), s.pending = .clockIs t :: rest ∧ t = s.now) :=
  ⟨rfl, by decide, by decide, ⟨{ disk with pending := [.access (.memRead 0x5FF8#16)] }, _, _, rfl, by decide⟩,
    ⟨{ disk with pending := [.access (.cruRead 0x1104#16)] }, _, _, rfl⟩,
    ⟨{ disk with pending := [.clockIs 0] }, _, _, rfl, rfl⟩⟩

/-- Insertions and removals at drives 0, 1, 3 and 4, of a sound and of an unsound image, and with a read
and a write transfer on drive 1. -/
theorem witness_InsertAndEject :
    ((∀ k img, ({ disk with pending := [.insert k img] } : State).pending = .insert k img :: []) ∧
      (∀ k, ({ disk with pending := [.eject k] } : State).pending = .eject k :: [])) ∧
    stepRefuses { disk with pending := [.insert 0 (.new (image track214))] } .noSuchDrive = true ∧
    stepRefuses { disk with pending := [.insert 4 (.known 0)] } .noSuchDrive = true ∧
    stepRefuses { disk with pending := [.eject 4] } .noSuchDrive = true ∧
    ok (step { disk with pending := [.insert 3 (.new (image track214))] }) (fun t =>
      t.drives == { disk.drives with drive3 := some 1 } && t.images == [image track214, image track214]) = true ∧
    ok (step { disk with pending := [.insert 3 (.known 0)] }) (fun t =>
      t.drives == { disk.drives with drive3 := some 0 } && t.images == disk.images) = true ∧
    stepRefuses { disk with pending := [.insert 3 (.known 1)] } .noSuchImage = true ∧
    ok (step { disk with pending := [.eject 1] }) (·.drives == { disk.drives with drive1 := none }) = true ∧
    stepRefuses { disk with pending := [.insert 1 (.new (image { track214 with sector := [] }))] } .badImage =
      true ∧
    stepRefuses { reading .readTrack 2 with pending := [.insert 1 (.new (image track214))] } .driveInUse = true ∧
    stepRefuses { reading .readTrack 2 with pending := [.insert 1 (.known 0)] } .driveInUse = true ∧
    stepRefuses { writing .writeTrack none 2 1 with pending := [.eject 1] } .driveInUse = true ∧
    stepRefuses { writing .writeTrack none 2 1 with
      drives := { disk.drives with drive2 := some 0 }, pending := [.eject 2] } .driveInUse = true ∧
    ok (step { writing .writeTrack none 2 1 with pending := [.eject 3] }) (fun _ => true) = true ∧
    ok (step { writing .writeTrack none 2 1 with pending := [.insert 3 (.known 0)] }) (fun _ => true) = true :=
  ⟨⟨fun _ _ => rfl, fun _ => rfl⟩, by decide +kernel⟩

theorem witness_CrcRegisterOperations :
    (walking .fm 0xFFFF#16).crcReady = true ∧
    ∃ (s : State) (rest : List Event), s.pending = .crcValue :: rest ∧ s.crcReady = true :=
  ⟨rfl, { walking .fm 0xFFFF#16 with pending := [.crcValue] }, _, rfl, rfl⟩

theorem witness_CrcBeforeInitRefused :
    State.reset.crcReady = false ∧
    ∃ (s : State) (rest : List Event), s.pending = .crcValue :: rest ∧ s.crcReady = false :=
  ⟨rfl, { disk with pending := [.crcValue] }, _, rfl, rfl⟩

theorem witness_CrcLinearity : ([0xFE#8, 0x01#8] : List Byte).length = [0x12#8, 0x34#8].length := rfl

theorem witness_CrcDetectsSingleBit : 7 < 8 := by decide

/-- Also of `DataModifiedStoresCrc`, `SectorWriteThenValid` and the first two hypotheses of
`SectorReads`; the data mark is at its smallest distance. -/
theorem witness_FieldChecks :
    (tinyDisk params tinyBytes).track? ref0 = some (tinyTrack tinyBytes) ∧
    tinyView ∈ (tinyTrack tinyBytes).sector ∧ (tinyTrack tinyBytes).format.density? = some .fm ∧
    viewInBounds (tinyTrack tinyBytes).data tinyView = true ∧ tinyView.idOff + 7 ≤ tinyView.dataOff := by
  decide +kernel

theorem witness_DataModifiedStoresCrc :
    (tinyDisk params tinyBytes).track? ref0 = some (tinyTrack tinyBytes) ∧
    tinyView ∈ (tinyTrack tinyBytes).sector ∧ (tinyTrack tinyBytes).format.density? = some .fm ∧
    viewInBounds (tinyTrack tinyBytes).data tinyView = true ∧ tinyView.idOff + 7 ≤ tinyView.dataOff :=
  witness_FieldChecks

theorem witness_NewBitStreamOperation : 8 ≤ 8 * [0xA5#8].length ∧ 8 * [0xA5#8].length < 9 := by decide

/-- The last bit, no bit left; in skip mode a pair left, and half a pair. -/
theorem witness_BitStreamNext :
    [(8, false, 7, true), (8, false, 8, false), (16, true, 14, true), (15, true, 14, false)].all (fun x =>
      let r : BitReader := ⟨[0xA5#8, 0xA5#8], x.1, x.2.2.1, x.2.1, .msb⟩
      ({ disk with readers := [r] } : State).readers[0]? == some r && decide (r.bitOffset ≤ r.totalBits) &&
        decide (r.totalBits ≤ 8 * r.buf.length) &&
        decide (r.bitOffset + (if r.skip then 2 else 1) ≤ r.totalBits) == x.2.2.2) = true := by decide

theorem witness_BitStreamSeekAndPositions :
    ∃ (s : State) (h : Nat) (r : BitReader), s.readers[h]? = some r :=
  ⟨withBits [0xA5#8] 8 .lsb true 0, 0, _, rfl⟩

theorem witness_SyncIdentities :
    syncTestFm 0xF77A#16 16 true 0 = some (0xD7#8, 0xFC#8) ∧
    syncTestMfm 0xD224#16 16 true 0 = some (0x14#8, 0xC2#8) := by decide

theorem witness_DecodeOperation :
    TrackFormat.fm.density? = some .fm ∧
    (∃ (s : State) (h : Nat) (r : BitReader), s.readers[h]? = some r ∧ r.bitOffset ≤ r.totalBits ∧
      r.totalBits ≤ 8 * r.buf.length) :=
  ⟨rfl, withBits [0xA5#8] 8 .lsb true 8, 0, _, rfl, by decide, by decide⟩

/-- A byte with its mark, and a byte of a recovered run between two marks. -/
theorem witness_DecodedBytesAreCells :
    let raw := bitsOf 64 [0xF5#8, 0x7E#8, 0x00#8, 0x00#8, 0x00#8, 0x00#8, 0xF5#8, 0x6F#8]
    (frag 0 16 0xC7 [0xFE#8] ∈ decodeBits .fm raw ∧ (frag 0 16 0xC7 [0xFE#8]).byteData[0]? = some 0xFE#8) ∧
    (frag 16 48 (-1) [0x00#8, 0x00#8] ∈ decodeBits .fm raw ∧
      (frag 16 48 (-1) [0x00#8, 0x00#8]).byteData[1]? = some 0x00#8) := by decide +kernel

/-- One mark; a recovered run up to a mark (R149); a run up to a mark that a later one overlaps (R148). -/
theorem witness_DecodeResultShape :
    decodeBits .fm (bitsOf 16 [0xF5#8, 0x7E#8]) = [frag 0 16 0xC7 [0xFE#8]] ∧
    decodeBits .mfm (bitsOf 80 ([0x44#8, 0x89#8] ++ List.replicate 6 0x00#8 ++ [0x44#8, 0x89#8])) =
      [frag 0 16 0x0A [0xA1#8], frag 16 64 (-1) [0x00#8, 0x00#8, 0x00#8], frag 64 80 0x0A [0xA1#8]] ∧
    decodeBits .mfm (bitsOf 87 ([0x44#8, 0x89#8] ++ List.replicate 6 0x00#8 ++ [0x44#8, 0x89#8, 0x12#8])) =
      [frag 0 16 0x0A [0xA1#8], frag 16 64 (-1) [0x00#8, 0x00#8, 0x00#8], frag 71 87 0x0A [0xA1#8]] := by
  decide +kernel

/-- Two fragments that touch, and two that overlap by one bit. -/
theorem witness_EncodeOperation :
    TrackFormat.mfm.density? = some .mfm ∧
    encodable [frag 0 16 0x0A [0xA1#8], frag 16 48 (-1) [0x00#8, 0x01#8]] = true ∧
    [frag 0 16 0x0A [0xA1#8], frag 16 48 (-1) [0x00#8, 0x01#8]].Pairwise
      (fun f g => f.bitOffsetEnd ≤ g.bitOffsetStart) ∧
    ¬[frag 0 16 0x0A [0xA1#8], frag 15 47 (-1) [0x00#8, 0x01#8]].Pairwise
      (fun f g => f.bitOffsetEnd ≤ g.bitOffsetStart) := by decide

/-- A first byte with its clock, a byte after it, a lead of three bits and a gap of five. -/
theorem witness_EncodedCells :
    let l := [frag 3 35 0xC7 [0xFE#8, 0x12#8], frag 40 56 (-1) [0x34#8]]
    encodable l = true ∧ frag 3 35 0xC7 [0xFE#8, 0x12#8] ∈ l ∧
    (frag 3 35 0xC7 [0xFE#8, 0x12#8]).byteData[0]? = some 0xFE#8 ∧
    (frag 3 35 0xC7 [0xFE#8, 0x12#8]).clock ≠ -1 ∧
    (frag 3 35 0xC7 [0xFE#8, 0x12#8]).byteData[1]? = some 0x12#8 ∧
    (l.head? = some (frag 3 35 0xC7 [0xFE#8, 0x12#8]) ∧ 2 < 3) ∧
    (l = [] ++ frag 3 35 0xC7 [0xFE#8, 0x12#8] :: frag 40 56 (-1) [0x34#8] :: [] ∧ 35 ≤ 39 ∧ 39 < 40) := by
  decide

theorem witness_FmCodecRoundTrip : ((0xD7 : Int), (0xFC#8 : Byte)) ∈ marksOf .fm := by decide

/-- Neighbours in a list of two are its two members. -/
theorem neighbours_of_two {a b f g : Fragment} {before after : List Fragment}
    (h : [a, b] = before ++ f :: g :: after) : f = a ∧ g = b := by
  match before with
  | [] => simp at h; exact ⟨h.1.symm, h.2.1.symm⟩
  | [x] => simp at h
  | x :: y :: rest => simp at h

/-- Two FM fragments 15 bits apart after an odd lead; two MFM fragments not apart, one of two bytes; the MFM
case of 42_sync_detector.md R129, a 0x00 before the next sync, where the window at 27 is 0x5224; the same
with a lead before the first sync. -/
theorem witness_CodecRoundTrip :
    (let l := [frag 5 37 0xC7 [0xFE#8, 0x01#8], frag 52 68 0xD7 [0xFC#8]];
      encodable l = true ∧ (∀ f ∈ l, ∃ b, f.byteData.head? = some b ∧ (f.clock, b) ∈ marksOf .fm) ∧
      (∀ before after f g, l = before ++ f :: g :: after → closeEnough .fm f g) ∧
      syncOnlyAtStarts .fm l (encodeFragments .fm l) = true) ∧
    (let l := [frag 32 48 0x14 [0xC2#8], frag 48 80 0x0A [0xA1#8, 0xFE#8]];
      encodable l = true ∧ (∀ f ∈ l, ∃ b, f.byteData.head? = some b ∧ (f.clock, b) ∈ marksOf .mfm) ∧
      (∀ before after f g, l = before ++ f :: g :: after → closeEnough .mfm f g) ∧
      syncOnlyAtStarts .mfm l (encodeFragments .mfm l) = true) ∧
    (let l := [frag 0 32 0x0A [0xA1#8, 0x00#8], frag 32 48 0x0A [0xA1#8]];
      encodable l = true ∧ (∀ f ∈ l, ∃ b, f.byteData.head? = some b ∧ (f.clock, b) ∈ marksOf .mfm) ∧
      (∀ before after f g, l = before ++ f :: g :: after → closeEnough .mfm f g) ∧
      syncOnlyAtStarts .mfm l (encodeFragments .mfm l) = true ∧
      window (encodeFragments .mfm l) 27 = 0x5224#16) ∧
    (let l := [frag 32 64 0x0A [0xA1#8, 0x00#8], frag 64 80 0x0A [0xA1#8]];
      encodable l = true ∧ (∀ f ∈ l, ∃ b, f.byteData.head? = some b ∧ (f.clock, b) ∈ marksOf .mfm) ∧
      (∀ before after f g, l = before ++ f :: g :: after → closeEnough .mfm f g) ∧
      syncOnlyAtStarts .mfm l (encodeFragments .mfm l) = true) := by
  refine ⟨⟨by decide, by simp [frag, marksOf], fun before after f g h => ?_, by decide +kernel⟩,
    ⟨by decide, by simp [frag, marksOf], fun before after f g h => ?_, by decide +kernel⟩,
    ⟨by decide, by simp [frag, marksOf], fun before after f g h => ?_, by decide +kernel, by decide +kernel⟩,
    ⟨by decide, by simp [frag, marksOf], fun before after f g h => ?_, by decide +kernel⟩⟩
  · obtain ⟨rfl, rfl⟩ := neighbours_of_two h
    simp [closeEnough, frag]
  · obtain ⟨rfl, rfl⟩ := neighbours_of_two h
    simp [closeEnough, frag]
  · obtain ⟨rfl, rfl⟩ := neighbours_of_two h
    simp [closeEnough, frag]
  · obtain ⟨rfl, rfl⟩ := neighbours_of_two h
    simp [closeEnough, frag]

theorem witness_SectorReads :
    (tinyDisk params tinyBytes).track? ref0 = some (tinyTrack tinyBytes) ∧
    tinyView ∈ (tinyTrack tinyBytes).sector ∧ viewInBounds (tinyTrack tinyBytes).data tinyView = true ∧
    (⟨0, 8⟩ : View) ∉ (tinyTrack tinyBytes).sector := by decide +kernel

/-- A write that changes nothing, and one that changes the data. -/
theorem witness_SectorWriteOperation :
    writeImage (sizeAt tinyBytes tinyView) 0xFB#8 (List.replicate 128 0xE5#8) =
      slice tinyBytes tinyView.dataOff (1 + sizeAt tinyBytes tinyView) ∧
    writeImage (sizeAt tinyBytes tinyView) 0xFB#8 [] ≠
      slice tinyBytes tinyView.dataOff (1 + sizeAt tinyBytes tinyView) ∧
    (tinyDisk params tinyBytes).track? ref0 = some (tinyTrack tinyBytes) ∧
    tinyView ∈ (tinyTrack tinyBytes).sector ∧ (tinyTrack tinyBytes).format.density? = some .fm ∧
    viewInBounds (tinyTrack tinyBytes).data tinyView = true ∧ tinyView.idOff + 7 ≤ tinyView.dataOff := by
  decide +kernel

theorem witness_SectorWriteThenValid :
    (tinyDisk params tinyBytes).track? ref0 = some (tinyTrack tinyBytes) ∧
    tinyView ∈ (tinyTrack tinyBytes).sector ∧ (tinyTrack tinyBytes).format.density? = some .fm ∧
    viewInBounds (tinyTrack tinyBytes).data tinyView = true ∧ tinyView.idOff + 7 ≤ tinyView.dataOff :=
  witness_FieldChecks

/-- At the smallest distance, and at the largest of each format; with a misaligned entry and one outside the
data between the two marks; with an ID that a second one replaces; in order. -/
theorem witness_LocatedSectorsExact :
    tinyView ∈ locateSectors params .fm [0, 56] tinyBytes ∧
    (⟨10, 43⟩ : View) ∈ locateSectors params .fm [80, 344] (scanBuffer 400 0x00#8 43 0xFB#8) ∧
    (⟨10, 55⟩ : View) ∈ locateSectors params .mfm [80, 440] (scanBuffer 400 0x00#8 55 0xFB#8) ∧
    locateSectors params .fm [80, 81, 344, 9999] (scanBuffer 400 0x00#8 43 0xFB#8) = [⟨10, 43⟩] ∧
    locateSectors params .fm [80, 160, 344] (((scanBuffer 400 0x00#8 43 0xFB#8).set 20 0xFE#8).set 24 0x00#8) = [⟨20, 43⟩] ∧
    [80, 160, 344].Pairwise (· ≤ ·) := by
  decide +kernel

theorem witness_TrackWriteOperation :
    (tinyDisk params tinyBytes).track? ref0 = some (tinyTrack tinyBytes) ∧
    TrackFormat.mfm.density? = some .mfm := by decide +kernel

theorem witness_TokenOperations :
    ((walking .mfm 0x1234#16).walk = some { density := .mfm, data := List.replicate 4 0x00#8, clock := [] } ∧
      (walking .mfm 0x1234#16).crc = 0x1234#16) ∧
    disk.walk = none := by decide

/-- From no walk, and from an open MFM walk with nothing in it. -/
theorem witness_TokenStreamIsTrackWrite :
    (tinyDisk params tinyBytes).track? ref0 = some (tinyTrack tinyBytes) ∧
    (tinyDisk params tinyBytes).walk = none ∧ [0xF7#8] ≠ ([] : List Byte) ∧
    (let s : State := { tinyDisk params tinyBytes with
        walk := some { density := .mfm, data := [], clock := [] }, crc := 0xCDB4#16, crcReady := true };
      s.track? ref0 = some (tinyTrack tinyBytes) ∧
      s.walk = some { density := .mfm, data := [], clock := [] } ∧
      s.crc = s.cfg.crcInitMfm) := by decide +kernel

/-- Equal entries, a descending pair, and a transfer in progress. -/
theorem witness_RawWriteOperation :
    (tinyDisk params tinyBytes).track? ref0 = some (tinyTrack tinyBytes) ∧
    [8, 8].Pairwise (· ≤ ·) ∧ ¬[8, 7].Pairwise (· ≤ ·) ∧ (tinyDisk params tinyBytes).cmdInProgress = .none ∧
    lastSectorByte.track? ref0 = some (tinyTrack tinyBytes) ∧ lastSectorByte.cmdInProgress ≠ .none := by
  decide +kernel

theorem witness_LocateAndGetSector :
    (tinyDisk params tinyBytes).track? ref0 = some (tinyTrack tinyBytes) ∧
    (tinyTrack tinyBytes).sector.all (viewInBounds (tinyTrack tinyBytes).data) = true := by decide +kernel

/-- Idle, and one clock before a Read Track times out. -/
theorem witness_PortReads :
    disk.timedOut = false ∧ disk.cmdInProgress ∉ [Transfer.readSector, .readAddress, .readTrack] ∧
    ({ reading .readTrack 2 with now := 599999 } : State).timedOut = false := by decide +kernel

theorem witness_PortWrites :
    disk.timedOut = false ∧ disk.cmdInProgress ∉ [Transfer.writeSector, .writeTrack] ∧
    ({ lastByte with now := 599999 } : State).timedOut = false := by decide +kernel

/-- The lowest Type I bus byte, and a Force Interrupt. -/
theorem witness_CommandPortWrite :
    disk.timedOut = false ∧ disk.cfg.wf = true ∧ Memory.wf disk.images = true ∧
    (0x80#8 : Byte).getLsbD 7 = true ∧ (0x2F#8 : Byte).extractLsb' 4 4 = 0x2#4 := by decide +kernel

theorem witness_CruWrites :
    (7, Instr.cru7 true) ∈ [(0, Instr.cru0 true), (1, .cru1 true), (2, .cru2 true), (3, .cru3 true),
      (4, .cru4 true), (5, .cru5 true), (6, .cru6 true), (7, .cru7 true)] := by decide

/-- Seeks to -1, to the last cylinder, and one beyond it. -/
theorem witness_RestoreAndSeek :
    [(10, 0x0B#8, 0x00#8, (-1 : Int)), (10, 0x00#8, 0x45#8, 79), (10, 0x00#8, 0x46#8, 80)].all (fun x =>
      let s : State := { disk with trackSelect := x.1, trackRegister := x.2.1, dataRegister := x.2.2.1 }
      s.timedOut == false && Memory.wf s.images &&
        (s.trackSelect : Int) + ((s.dataRegister.toNat : Int) - (s.trackRegister.toNat : Int)) == x.2.2.2) =
      true := by decide +kernel

theorem witness_StepCommands :
    disk.timedOut = false ∧ Memory.wf disk.images = true ∧
    (Instr.stepout true false true 0#2, StepDir.outward) ∈ [(Instr.step true false true 0#2, disk.stepDir),
      (.stepin true false true 0#2, .inward), (.stepout true false true 0#2, .outward)] := by decide +kernel

theorem witness_ForceInterruptCommand : (reading .readSector 2).timedOut = false := by decide +kernel

/-- No sector of the name, no sector, no data, no track. -/
theorem witness_NotFoundCommands :
    (disk.timedOut = false ∧ protectedNow disk = false ∧
      (∀ t, disk.curTrack = some t → sectorNamed t disk.trackRegister disk.sectorRegister = none)) ∧
    ((withDisk params Track.blank).timedOut = false ∧
      (∀ t, (withDisk params Track.blank).curTrack = some t → t.sector = [] ∧ t.data = [])) ∧
    ((State.resetWith params).timedOut = false ∧ (State.resetWith params).curTrack = none ∧
      protectedNow (State.resetWith params) = false) := by
  refine ⟨⟨by decide +kernel, by decide +kernel, fun t h => ?_⟩,
    ⟨by decide +kernel, fun t h => ?_⟩, by decide +kernel⟩
  · have e : disk.curTrack = some track214 := by decide +kernel
    rw [e] at h
    cases h
    decide +kernel
  · have e : (withDisk params Track.blank).curTrack = some Track.blank := by decide +kernel
    rw [e] at h
    cases h
    exact ⟨rfl, rfl⟩

theorem witness_WriteProtectedCommands :
    protectedDisk.timedOut = false ∧ protectedNow protectedDisk = true := by decide +kernel

theorem witness_ReadSectorCommand :
    (tinyDisk params tinyBytes).timedOut = false ∧
    (tinyDisk params tinyBytes).curTrack = some (tinyTrack tinyBytes) ∧
    sectorNamed (tinyTrack tinyBytes) 0x01#8 0x03#8 = some tinyView ∧
    (tinyDisk params tinyBytes).trackRegister = 0x01#8 ∧ (tinyDisk params tinyBytes).sectorRegister = 0x03#8 ∧
    (tinyTrack tinyBytes).format.density? = some .fm ∧
    viewInBounds (tinyTrack tinyBytes).data tinyView = true ∧
    (tinyTrack tinyBytes).data[tinyView.dataOff]? = some 0xFB#8 ∧
    (∀ t, disk.curTrack = some t → sectorNamed t disk.trackRegister disk.sectorRegister = none) :=
  ⟨by decide +kernel, by decide +kernel, by decide +kernel, rfl, rfl, rfl, by decide +kernel,
    by decide +kernel, witness_NotFoundCommands.1.2.2⟩

theorem witness_WriteCommandsStage :
    (tinyDisk params tinyBytes).timedOut = false ∧ protectedNow (tinyDisk params tinyBytes) = false ∧
    (tinyDisk params tinyBytes).curTrack = some (tinyTrack tinyBytes) ∧
    sectorNamed (tinyTrack tinyBytes) 0x01#8 0x03#8 = some tinyView ∧
    sectorNamed (tinyTrack tinyBytes) 0x01#8 0x04#8 = none ∧
    viewInBounds (tinyTrack tinyBytes).data tinyView = true := by decide +kernel

/-- A track with a sector and data, a blank track, an `Unknown` track with bytes, no track. -/
theorem witness_ReadAddressAndTrack :
    (tinyDisk params tinyBytes).timedOut = false ∧
    (tinyDisk params tinyBytes).curTrack = some (tinyTrack tinyBytes) ∧
    (tinyTrack tinyBytes).sector.head? = some tinyView ∧
    (tinyTrack tinyBytes).format.density? = some .fm ∧ (tinyTrack tinyBytes).format ≠ .unknown ∧
    (tinyTrack tinyBytes).data ≠ [] ∧
    (∃ t, (withDisk params { track214 with format := .unknown, sector := [] }).curTrack = some t ∧
      t.format = .unknown ∧ t.data ≠ []) ∧
    tinyView.idOff + 7 ≤ (tinyTrack tinyBytes).data.length ∧
    (∀ t, (withDisk params Track.blank).curTrack = some t → t.sector = [] ∧ t.data = []) ∧
    ((State.resetWith params).timedOut = false ∧ (State.resetWith params).curTrack = none ∧
      protectedNow (State.resetWith params) = false) :=
  ⟨by decide +kernel, by decide +kernel, rfl, rfl, by decide, by decide +kernel,
    ⟨{ track214 with format := .unknown, sector := [] }, by decide +kernel, rfl, by decide +kernel⟩,
    by decide +kernel, witness_NotFoundCommands.2.1.2, witness_NotFoundCommands.2.2⟩

/-- The last byte, and the one before it. -/
theorem witness_TransferRead :
    (reading .readSector 1).timedOut = false ∧
    (reading .readSector 1).cmdInProgress ∈ [Transfer.readSector, .readAddress, .readTrack] ∧
    (reading .readSector 1).dataBuffer[(reading .readSector 1).readDataPtr]? = some 0xE5#8 ∧
    (reading .readSector 2).dataBuffer[(reading .readSector 2).readDataPtr]? = some 0xE5#8 := by decide +kernel

/-- Two bytes to come; the last byte of a Write Sector; the last byte of a Write Track. -/
theorem witness_TransferWrite :
    ((writing .writeTrack none 2 2).timedOut = false ∧ 1 < (writing .writeTrack none 2 2).bytesLeft ∧
      (writing .writeTrack none 2 2).cmdInProgress ∈ [Transfer.writeSector, .writeTrack]) ∧
    (lastSectorByte.timedOut = false ∧ lastSectorByte.bytesLeft ≤ 1 ∧
      lastSectorByte.bytesExpected - lastSectorByte.bytesLeft < lastSectorByte.dataBuffer.length ∧
      lastSectorByte.xferTarget = some { track := ref0, sector := some tinyView } ∧
      ∃ s', exec (.sectorWrite ref0 tinyView lastSectorByte.dataMark (lastSectorByte.dataBuffer.set 127 0xE5#8))
        { lastSectorByte with
          dataRegister := ~~~0x1A#8, dataBuffer := lastSectorByte.dataBuffer.set 127 0xE5#8, bytesLeft := 0
          result := .nothing } = .next s') ∧
    (lastByte.timedOut = false ∧ lastByte.bytesLeft ≤ 1 ∧
      lastByte.bytesExpected - lastByte.bytesLeft < lastByte.dataBuffer.length ∧
      lastByte.xferTarget = some { track := ref0, sector := none } ∧
      ∃ s', exec (.trackWrite ref0 .fm [0xFB#8, 0xF7#8])
        { lastByte with
          dataRegister := ~~~0x08#8, dataBuffer := [0xFB#8, 0xF7#8], bytesLeft := 0, result := .nothing } =
        .next s') :=
  ⟨by decide +kernel, ⟨by decide +kernel, by decide +kernel, by decide +kernel, rfl,
      exists_next (by decide +kernel)⟩,
    ⟨by decide +kernel, by decide +kernel, by decide +kernel, rfl, exists_next (by decide +kernel)⟩⟩

/-- Exactly at the end of the revolution. -/
theorem witness_RevolutionTimeOut :
    (Instr.restore false false 0#2).format = .cmd8 ∧ Instr.rsta.format = .port ∧
    params.clocksPerRev ≤ 610000 - 10000 ∧
    ({ reading .readTrack 2 with startClock := 10000, now := 610000 } : State).cmdInProgress = .readTrack ∧
    ({ lastByte with startClock := 10000, now := 610000 } : State).cmdInProgress = .writeTrack ∧
    lastByte.xferTarget = some { track := ref0, sector := none } ∧
    (lastByte.track? ref0).isSome = true := by decide +kernel

theorem witness_ResetState :
    params.resetStepIn = false ∧
    (StatusBit.busy, 0x01#8) ∈ [(StatusBit.notReady, 0x80#8), (.busy, 0x01#8)] := ⟨rfl, by decide⟩

/-- The invariant in the middle of a Write Track, its last byte to come. -/
theorem lastByte_inv : Inv lastByte where
  params := by decide +kernel
  memory := by decide +kernel
  references := by decide +kernel
  drive := by decide +kernel
  head := by decide +kernel
  cylinder := by decide +kernel
  busy := by decide +kernel
  request := by decide +kernel
  ready := by decide +kernel
  lost := by decide +kernel
  typeOne := by decide +kernel
  transfer := by decide +kernel
  target := by decide +kernel
  clock := by decide +kernel
  readers := by decide +kernel
  walk := by decide +kernel

/-- The step that commits. -/
theorem witness_StepKeepsInvariant :
    ∃ s s' : State, Inv s ∧ step s = .next s' ∧ s'.images ≠ s.images := by
  have hi : Inv { lastByte with pending := [.call (.wdat 0x08#8)] } := { lastByte_inv with }
  have h : ok (step { lastByte with pending := [.call (.wdat 0x08#8)] })
      (fun t => decide (t.images ≠ lastByte.images)) = true := by decide +kernel
  generalize hs : step { lastByte with pending := [.call (.wdat 0x08#8)] } = o at h
  cases o with
  | next t => exact ⟨_, t, hi, hs, by simpa [ok] using h⟩
  | fault r => cases r
  | refused r => simp [ok] at h

theorem witness_HostAccessNeverRefused :
    Inv lastByte ∧ boundsOk lastByte = true ∧ targetListed lastByte = true ∧
    targetListed lastSectorByte = true ∧ (Instr.wdat 0x08#8).format = .port :=
  ⟨lastByte_inv, by decide +kernel, by decide +kernel, by decide +kernel, rfl⟩

theorem witness_HeadMovesOnlyByTypeI :
    ∃ s', exec (.stepin false false false 0#2) disk = .next s' ∧
      (s'.trackSelect ≠ disk.trackSelect ∨ s'.stepDir ≠ disk.stepDir) := by
  have h : ok (exec (.stepin false false false 0#2) disk)
      (fun t => decide (t.trackSelect ≠ disk.trackSelect ∨ t.stepDir ≠ disk.stepDir)) = true := by
    decide +kernel
  generalize exec (.stepin false false false 0#2) disk = o at h
  cases o with
  | next t => exact ⟨t, rfl, by simpa [ok] using h⟩
  | fault r => cases r
  | refused r => simp [ok] at h

/-- By the last byte, and by the time-out. -/
theorem witness_TracksChangeOnlyByCommit :
    (∃ s', exec (.wdat 0x08#8) lastByte = .next s' ∧ s'.images ≠ lastByte.images) ∧
    (∃ s', exec .rsta { lastByte with now := 600000 } = .next s' ∧ s'.images ≠ lastByte.images) := by
  have h1 : ok (exec (.wdat 0x08#8) lastByte) (fun t => decide (t.images ≠ lastByte.images)) = true := by
    decide +kernel
  have h2 : ok (exec .rsta { lastByte with now := 600000 })
      (fun t => decide (t.images ≠ lastByte.images)) = true := by decide +kernel
  constructor
  · generalize exec (.wdat 0x08#8) lastByte = o at h1
    cases o with
    | next t => exact ⟨t, rfl, by simpa [ok] using h1⟩
    | fault r => cases r
    | refused r => simp [ok] at h1
  · generalize exec .rsta { lastByte with now := 600000 } = o at h2
    cases o with
    | next t => exact ⟨t, rfl, by simpa [ok] using h2⟩
    | fault r => cases r
    | refused r => simp [ok] at h2

end Sys2Proof.Tests
end

section
/-! SUPPORT and the proof of what a sync report says. A cell is put together two bits at a time and taken
apart bit by bit (00_scope.md R7); both are the appending of binary digits of a fixed width to a word, whose
bits are said once. The detector answers only for the cell interleaved from its report
(42_sync_detector.md R126, R128), so the report is that cell taken apart. -/

namespace Sys2Proof.Machine

/-! ### Appending digits to a word -/

/-- The digits `g (k - 1)`, ..., `g 0`, each `n` bits wide, appended to `x` on its right. -/
def appendDigits {n w : Nat} (g : Nat → BitVec n) (k : Nat) (x : BitVec w) : BitVec w :=
  (List.range k).reverse.foldl (fun acc i => (acc <<< n) ||| (g i).setWidth w) x

@[simp] theorem appendDigits_zero {n w : Nat} (g : Nat → BitVec n) (x : BitVec w) :
    appendDigits g 0 x = x := rfl

theorem appendDigits_succ {n w : Nat} (g : Nat → BitVec n) (k : Nat) (x : BitVec w) :
    appendDigits g (k + 1) x = appendDigits g k ((x <<< n) ||| (g k).setWidth w) := by
  simp [appendDigits, List.range_succ]

/-- The bits above the digits are those the word had before. -/
theorem getLsbD_appendDigits_above {n w : Nat} (g : Nat → BitVec n) (k : Nat) (x : BitVec w) (j : Nat)
    (h : n * k + j < w) : (appendDigits g k x).getLsbD (n * k + j) = x.getLsbD j := by
  induction k generalizing x j with
  | zero => simp
  | succ k ih =>
    have hpos : n * (k + 1) + j = n * k + (n + j) := by rw [Nat.mul_succ, Nat.add_assoc]
    have hw : n + j < w := by omega
    rw [hpos, appendDigits_succ, ih _ _ (hpos ▸ h)]
    simp [hw, -BitVec.getLsbD_eq_getElem]

/-- Bit `j` of digit `i` stands at place `n * i + j`. -/
theorem getLsbD_appendDigits {n w : Nat} (g : Nat → BitVec n) (k : Nat) (x : BitVec w) {i j : Nat}
    (hi : i < k) (hj : j < n) (h : n * i + j < w) :
    (appendDigits g k x).getLsbD (n * i + j) = (g i).getLsbD j := by
  induction k generalizing x with
  | zero => exact absurd hi (Nat.not_lt_zero i)
  | succ k ih =>
    rw [appendDigits_succ]
    rcases Nat.lt_succ_iff_lt_or_eq.mp hi with hlt | rfl
    · exact ih _ hlt
    · have hw : j < w := by omega
      rw [getLsbD_appendDigits_above _ _ _ _ h]
      simp [hj, hw]

/-! ### Cells bit by bit (00_scope.md R7) -/

theorem interleave_eq_appendDigits (c d : Byte) :
    interleave c d =
      appendDigits (fun i => BitVec.ofBool (c.getLsbD i) ++ BitVec.ofBool (d.getLsbD i)) 8 0#16 := rfl

theorem dataOf_eq_appendDigits (w : Word16) :
    dataOf w = appendDigits (fun i => BitVec.ofBool (w.getLsbD (2 * i))) 8 0#8 := rfl

theorem clockOf_eq_appendDigits (w : Word16) :
    clockOf w = appendDigits (fun i => BitVec.ofBool (w.getLsbD (2 * i + 1))) 8 0#8 := rfl

theorem getLsbD_interleave_data (c d : Byte) {i : Nat} (hi : i < 8) :
    (interleave c d).getLsbD (2 * i) = d.getLsbD i := by
  rw [interleave_eq_appendDigits]
  exact (getLsbD_appendDigits _ 8 (0#16) hi (j := 0) (by decide) (by omega)).trans
    (by simp only [BitVec.getLsbD_append]; simp)

theorem getLsbD_interleave_clock (c d : Byte) {i : Nat} (hi : i < 8) :
    (interleave c d).getLsbD (2 * i + 1) = c.getLsbD i := by
  rw [interleave_eq_appendDigits]
  exact (getLsbD_appendDigits _ 8 (0#16) hi (j := 1) (by decide) (by omega)).trans
    (by simp only [BitVec.getLsbD_append]; simp)

theorem getLsbD_dataOf (w : Word16) {i : Nat} (hi : i < 8) :
    (dataOf w).getLsbD i = w.getLsbD (2 * i) := by
  rw [dataOf_eq_appendDigits]
  have h := getLsbD_appendDigits (fun i => BitVec.ofBool (w.getLsbD (2 * i))) 8 (0#8) hi (j := 0)
    (by decide) (by omega)
  simpa using h

theorem getLsbD_clockOf (w : Word16) {i : Nat} (hi : i < 8) :
    (clockOf w).getLsbD i = w.getLsbD (2 * i + 1) := by
  rw [clockOf_eq_appendDigits]
  have h := getLsbD_appendDigits (fun i => BitVec.ofBool (w.getLsbD (2 * i + 1))) 8 (0#8) hi (j := 0)
    (by decide) (by omega)
  simpa using h

/-! ### Taking apart what was interleaved -/

@[simp] theorem dataOf_interleave (c d : Byte) : dataOf (interleave c d) = d :=
  BitVec.eq_of_getLsbD_eq fun _ hi => by rw [getLsbD_dataOf _ hi, getLsbD_interleave_data _ _ hi]

@[simp] theorem clockOf_interleave (c d : Byte) : clockOf (interleave c d) = c :=
  BitVec.eq_of_getLsbD_eq fun _ hi => by rw [getLsbD_clockOf _ hi, getLsbD_interleave_clock _ _ hi]

/-- The oldest bit of a cell is a clock bit: the data byte does not depend on it (R128). -/
theorem dataOf_low15 (w : Word16) : dataOf (w &&& 0x7FFF#16) = dataOf w := by
  have hmask : ∀ i < 8, (0x7FFF#16).getLsbD (2 * i) = true := by decide
  refine BitVec.eq_of_getLsbD_eq fun i hi => ?_
  rw [getLsbD_dataOf _ hi, getLsbD_dataOf _ hi, BitVec.getLsbD_and, hmask i hi, Bool.and_true]

/-! ### What the detector answers -/

/-- FM reports a mark only for the very cell of its clock identity and byte (R126; 30_encoding.md R76). -/
theorem syncTestFm_cell {reg : Word16} {filled : Nat} {hunting : Bool} {cell : Nat} {c d : Byte}
    (h : syncTestFm reg filled hunting cell = some (c, d)) : reg = interleave c d := by
  simp only [syncTestFm] at h
  split_ifs at h <;> cases h <;> subst reg <;> decide

/-- MFM reports a mark only for the cell of its clock identity and byte, the oldest bit left out (R128;
30_encoding.md R77). -/
theorem syncTestMfm_cell {reg : Word16} {filled : Nat} {hunting : Bool} {cell : Nat} {c d : Byte}
    (h : syncTestMfm reg filled hunting cell = some (c, d)) : reg &&& 0x7FFF#16 = interleave c d := by
  simp only [syncTestMfm] at h
  split_ifs at h with _ h4489 h5224
  · cases h
    rw [h4489]
    decide
  · cases h
    rw [h5224.1]
    decide

theorem syncTestFm_report {reg : Word16} {filled : Nat} {hunting : Bool} {cell : Nat} {c d : Byte}
    (h : syncTestFm reg filled hunting cell = some (c, d)) : c = clockOf reg ∧ d = dataOf reg := by
  rw [syncTestFm_cell h, clockOf_interleave, dataOf_interleave]
  exact ⟨rfl, rfl⟩

theorem syncTestMfm_report {reg : Word16} {filled : Nat} {hunting : Bool} {cell : Nat} {c d : Byte}
    (h : syncTestMfm reg filled hunting cell = some (c, d)) :
    c = clockOf (reg &&& 0x7FFF#16) ∧ d = dataOf reg := by
  rw [← dataOf_low15 reg, syncTestMfm_cell h, clockOf_interleave, dataOf_interleave]
  exact ⟨rfl, rfl⟩

/-- Settles O22: a report is taken apart from the cell it was interleaved into, and cells are compared bit by
bit. -/
theorem syncIdentities : Obligations.SyncIdentities := by
  unfold Obligations.SyncIdentities
  refine ⟨?fm, ?mfm, ?apart, ?bits⟩
  case fm => exact fun _ _ _ _ _ _ => syncTestFm_report
  case mfm => exact fun _ _ _ _ _ _ => syncTestMfm_report
  case apart => exact fun c d => ⟨clockOf_interleave c d, dataOf_interleave c d⟩
  case bits => exact fun c d _ hi => ⟨getLsbD_interleave_clock c d hi, getLsbD_interleave_data c d hi⟩

end Sys2Proof.Machine
end

section
/-! SUPPORT. The bits of a status byte that the invariant speaks of, kept apart from the state that holds the
byte: which masks leave them alone, and what staging and ending a transfer make of them (30_encoding.md R70 to
R72, 60_exceptions.md R308, R319). -/

namespace Sys2Proof.Machine

/-- What the invariant says of a status byte: `BUSY` and `DRQ` tell whether a transfer is in progress,
`NOT_READY` is clear, and outside Type I status so is `LOST_DATA`. A byte of this form with no transfer is a mask
that can be set without disturbing any of the four. -/
structure StatusOk (p : Params) (typeI active : Bool) (w : Byte) : Prop where
  busy : w.getLsbD (p.layout.position .busy).val = active
  request : w.getLsbD (p.layout.position .drq).val = active
  ready : w.getLsbD (p.layout.position .notReady).val = false
  lost : typeI = false → w.getLsbD (p.layout.position .lostData).val = false

/-- The form of a status byte, of the status register of a state. -/
abbrev State.statusOk (s : State) : Prop :=
  StatusOk s.cfg s.statusTypeI (decide (s.cmdInProgress ≠ .none)) s.statusRegister

theorem Inv.statusOk {s : State} (h : Inv s) : s.statusOk where
  busy := Bool.eq_iff_iff.2 (h.busy.trans decide_eq_true_iff.symm)
  request := Bool.eq_iff_iff.2 (h.request.trans decide_eq_true_iff.symm)
  ready := h.ready
  lost := h.lost

theorem State.statusOk.busy_iff {s : State} (h : s.statusOk) :
    statusHas s .busy = true ↔ s.cmdInProgress ≠ .none :=
  (Bool.eq_iff_iff.1 h.busy).trans decide_eq_true_iff

theorem State.statusOk.request_iff {s : State} (h : s.statusOk) :
    statusHas s .drq = true ↔ s.cmdInProgress ≠ .none :=
  (Bool.eq_iff_iff.1 h.request).trans decide_eq_true_iff

/-! ### Positions of the layout -/

/-- The layout in use is well formed, with the bits its variant reports for a data mark. -/
theorem Params.layout_wf {p : Params} (h : p.wf = true) :
    p.layout.wf (if p.isFD1771 then [p.layout.recordHigh, p.layout.recordLow]
      else [p.layout.recordType, p.layout.writeProtected]) = true := by
  simp only [Params.wf, Bool.and_eq_true] at h
  obtain ⟨⟨⟨-, h1771⟩, h179x⟩, -⟩ := h
  unfold Params.layout
  cases p.isFD1771
  · exact h179x
  · exact h1771

/-- The bits Type I status stores are apart from `BUSY`, `DRQ` and `NOT_READY`, and these from each other. -/
theorem Params.nodup_typeOne {p : Params} (h : p.wf = true) :
    [p.layout.busy, p.layout.drq, p.layout.track0, p.layout.crcError, p.layout.notFound, p.layout.headLoaded,
      p.layout.writeProtected, p.layout.notReady].Nodup := by
  have hl := Params.layout_wf h
  simp only [StatusLayout.wf, Bool.and_eq_true, decide_eq_true_eq] at hl
  exact hl.1.1.1

/-- The bits of a Type II or III status are apart. -/
theorem Params.nodup_typeTwo {p : Params} (h : p.wf = true) :
    [p.layout.busy, p.layout.drq, p.layout.lostData, p.layout.crcError, p.layout.notFound,
      p.layout.writeProtected, p.layout.notReady].Nodup := by
  have hl := Params.layout_wf h
  simp only [StatusLayout.wf, Bool.and_eq_true, decide_eq_true_eq] at hl
  exact hl.1.2

/-- The bits a Read Sector reports are apart from the other bits of its status. -/
theorem Params.nodup_reported {p : Params} (h : p.wf = true) :
    ((if p.isFD1771 then [p.layout.recordHigh, p.layout.recordLow]
      else [p.layout.recordType, p.layout.writeProtected]) ++
      [p.layout.busy, p.layout.drq, p.layout.lostData, p.layout.crcError, p.layout.notFound,
        p.layout.notReady]).Nodup := by
  have hl := Params.layout_wf h
  simp only [StatusLayout.wf, Bool.and_eq_true, decide_eq_true_eq] at hl
  exact hl.2

/-! ### Masks that disturb nothing -/

theorem StatusOk.zero (p : Params) (typeI : Bool) : StatusOk p typeI false 0x00#8 := by
  constructor <;> simp

theorem StatusOk.maskIf {p : Params} {typeI : Bool} {m : Byte} (h : StatusOk p typeI false m) (c : Bool) :
    StatusOk p typeI false (maskIf c m) := by
  cases c
  · exact .zero p typeI
  · exact h

/-- Setting the bits of such a mask keeps the form. -/
theorem StatusOk.or {p : Params} {typeI active : Bool} {w m : Byte} (hw : StatusOk p typeI active w)
    (hm : StatusOk p typeI false m) : StatusOk p typeI active (w ||| m) where
  busy := by simp only [BitVec.getLsbD_or, hw.busy, hm.busy, Bool.or_false]
  request := by simp only [BitVec.getLsbD_or, hw.request, hm.request, Bool.or_false]
  ready := by simp only [BitVec.getLsbD_or, hw.ready, hm.ready, Bool.or_false]
  lost ht := by simp only [BitVec.getLsbD_or, hw.lost ht, hm.lost ht, Bool.or_false]

/-- Clearing bits of such a mask leaves such a mask. -/
theorem StatusOk.clearBits {p : Params} {typeI : Bool} {w : Byte} (h : StatusOk p typeI false w) (m : Byte) :
    StatusOk p typeI false (clearBits w m) where
  busy := by simp only [Machine.clearBits, BitVec.getLsbD_and, h.busy, Bool.false_and]
  request := by simp only [Machine.clearBits, BitVec.getLsbD_and, h.request, Bool.false_and]
  ready := by simp only [Machine.clearBits, BitVec.getLsbD_and, h.ready, Bool.false_and]
  lost ht := by simp only [Machine.clearBits, BitVec.getLsbD_and, h.lost ht, Bool.false_and]

/-- A named bit apart from the four disturbs none of them. -/
theorem StatusOk.mask {p : Params} {typeI : Bool} {b : StatusBit}
    (hbusy : p.layout.busy ≠ p.layout.position b) (hdrq : p.layout.drq ≠ p.layout.position b)
    (hready : p.layout.notReady ≠ p.layout.position b)
    (hlost : typeI = false → p.layout.lostData ≠ p.layout.position b) :
    StatusOk p typeI false (p.mask b) where
  busy := by rw [Params.mask_getLsbD, decide_eq_false_iff_not, Fin.val_inj]; exact hbusy
  request := by rw [Params.mask_getLsbD, decide_eq_false_iff_not, Fin.val_inj]; exact hdrq
  ready := by rw [Params.mask_getLsbD, decide_eq_false_iff_not, Fin.val_inj]; exact hready
  lost ht := by rw [Params.mask_getLsbD, decide_eq_false_iff_not, Fin.val_inj]; exact hlost ht

theorem StatusOk.mask_crcError {p : Params} (h : p.wf = true) (typeI : Bool) :
    StatusOk p typeI false (p.mask .crcError) := by
  have hn := Params.nodup_typeTwo h
  simp only [List.nodup_cons, List.mem_cons, not_or] at hn
  apply StatusOk.mask <;> grind [StatusLayout.position]

theorem StatusOk.mask_notFound {p : Params} (h : p.wf = true) (typeI : Bool) :
    StatusOk p typeI false (p.mask .notFound) := by
  have hn := Params.nodup_typeTwo h
  simp only [List.nodup_cons, List.mem_cons, not_or] at hn
  apply StatusOk.mask <;> grind [StatusLayout.position]

/-- `SEEK_ERROR` is `NOT_FOUND` under another name (30_encoding.md R71). -/
theorem StatusOk.mask_seekError {p : Params} (h : p.wf = true) (typeI : Bool) :
    StatusOk p typeI false (p.mask .seekError) := StatusOk.mask_notFound h typeI

theorem StatusOk.mask_writeProtected {p : Params} (h : p.wf = true) (typeI : Bool) :
    StatusOk p typeI false (p.mask .writeProtected) := by
  have hn := Params.nodup_typeTwo h
  simp only [List.nodup_cons, List.mem_cons, not_or] at hn
  apply StatusOk.mask <;> grind [StatusLayout.position]

/-- `TRACK0` may share the place of `LOST_DATA`, so it disturbs nothing in Type I status only. -/
theorem StatusOk.mask_track0 {p : Params} (h : p.wf = true) : StatusOk p true false (p.mask .track0) := by
  have hn := Params.nodup_typeOne h
  simp only [List.nodup_cons, List.mem_cons, not_or] at hn
  apply StatusOk.mask <;> grind [StatusLayout.position]

theorem StatusOk.mask_headLoaded {p : Params} (h : p.wf = true) :
    StatusOk p true false (p.mask .headLoaded) := by
  have hn := Params.nodup_typeOne h
  simp only [List.nodup_cons, List.mem_cons, not_or] at hn
  apply StatusOk.mask <;> grind [StatusLayout.position]

/-- The record type of an FD1771. -/
theorem StatusOk.recordBits1771 {p : Params} (h : p.wf = true) (hv : p.isFD1771 = true) (typeI : Bool)
    (mark : Byte) : StatusOk p typeI false (recordBits1771 p mark) := by
  have hn := Params.nodup_reported h
  simp only [hv, if_true, List.cons_append, List.nil_append, List.nodup_cons, List.mem_cons, not_or] at hn
  have hhigh : StatusOk p typeI false (p.mask .recordHigh) := by
    apply StatusOk.mask <;> grind [StatusLayout.position]
  have hlow : StatusOk p typeI false (p.mask .recordLow) := by
    apply StatusOk.mask <;> grind [StatusLayout.position]
  exact (hhigh.maskIf _).or (hlow.maskIf _)

/-- The record type of an FD179x. -/
theorem StatusOk.mask_recordType {p : Params} (h : p.wf = true) (hv : p.isFD1771 = false) (typeI : Bool) :
    StatusOk p typeI false (p.mask .recordType) := by
  have hn := Params.nodup_reported h
  simp only [hv, Bool.false_eq_true, if_false, List.cons_append, List.nil_append, List.nodup_cons,
    List.mem_cons, not_or] at hn
  apply StatusOk.mask <;> grind [StatusLayout.position]

/-- What a Read Sector reports of the data mark (30_encoding.md R71, R72). -/
theorem StatusOk.reportMark {p : Params} (h : p.wf = true) {typeI : Bool} {w : Byte} (mark : Byte)
    (hw : StatusOk p typeI false w) : StatusOk p typeI false (reportMark p mark w) := by
  unfold Machine.reportMark
  cases hv : p.isFD1771
  · exact hw.or ((StatusOk.mask_recordType h hv typeI).maskIf _)
  · exact (hw.clearBits _).or (StatusOk.recordBits1771 h hv typeI mark)

/-- The assembled status of a Type I command (48_controller_type1_type4.md R258). -/
theorem StatusOk.typeOneBits {s : State} (h : s.cfg.wf = true) : StatusOk s.cfg true false (typeOneBits s) :=
  (((StatusOk.mask_track0 h).maskIf _).or ((StatusOk.mask_writeProtected h true).maskIf _)).or
    ((StatusOk.mask_headLoaded h).maskIf _)

/-! ### The start and the end of a transfer -/

/-- Staging a transfer sets `BUSY` and `DRQ` (47_controller_interface.md R234). -/
theorem StatusOk.staged {p : Params} (h : p.wf = true) {w : Byte} (hw : StatusOk p false false w) :
    StatusOk p false true (stagedStatus p w) := by
  have hn := Params.nodup_typeTwo h
  simp only [List.nodup_cons, List.mem_cons, not_or] at hn
  obtain ⟨-, -, hready, hlost⟩ := hw
  constructor <;>
    simp only [stagedStatus, BitVec.getLsbD_or, Params.mask_getLsbD, Fin.val_inj] <;>
    grind [StatusLayout.position]

/-- Clearing `BUSY` and `DRQ` ends a transfer (49_controller_type2_type3.md R283). -/
theorem StatusOk.ended {p : Params} {typeI active : Bool} {w : Byte} (hw : StatusOk p typeI active w) :
    StatusOk p typeI false (endedStatus p w) := by
  obtain ⟨-, -, hready, hlost⟩ := hw
  constructor <;>
    simp only [endedStatus, Machine.clearBits, BitVec.getLsbD_and, BitVec.getLsbD_not, Params.mask_getLsbD] <;>
    grind

/-- Force Interrupt clears `BUSY`, and `DRQ` where it is set (48_controller_type1_type4.md R262): that is ending
a transfer. -/
theorem clearBits_drq_busy (p : Params) (w : Byte) :
    clearBits (if anySet w (p.mask .drq) then clearBits w (p.mask .drq) else w) (p.mask .busy) =
      endedStatus p w := by
  have hkeep : anySet w (p.mask .drq) = false → clearBits w (p.mask .drq) = w := by
    intro h
    rw [anySet_mask] at h
    refine BitVec.eq_of_getLsbD_eq fun i hi => ?_
    simp only [clearBits, BitVec.getLsbD_and, BitVec.getLsbD_not, Params.mask_getLsbD, hi]
    grind
  have hcomm : ∀ x y z : Byte, clearBits (clearBits x y) z = clearBits (clearBits x z) y := by
    intro x y z
    simp only [clearBits, BitVec.and_assoc, BitVec.and_comm (~~~y)]
  cases h : anySet w (p.mask .drq)
  · rw [endedStatus, hcomm, hkeep h]; rfl
  · rw [endedStatus, hcomm]; rfl

end Sys2Proof.Machine
end

section
/-! SUPPORT. What the operations of the units do to the state, as a sequence of a few small updates, none of
which touches a controller register or a drive; and that each such update keeps the invariant. A commit is such a
sequence too. -/

namespace Sys2Proof.Machine

/-! ### Tracks that stay -/

/-- Reading a track asks for the drives and the images only. -/
theorem track?_congr {s s' : State} (hd : s'.drives = s.drives) (hi : s'.images = s.images) (r : TrackRef) :
    s'.track? r = s.track? r := by
  unfold State.track? State.imageIn
  rw [hd, hi]

/-- Putting a track leaves every track that is there in its place. -/
theorem track?_putTrack_isSome {s : State} {r : TrackRef} {t : Track} (t' : Track) (h : s.track? r = some t)
    (r' : TrackRef) (hr : (s.track? r').isSome = true) : ((s.putTrack r t').track? r').isSome = true := by
  by_cases hs : sameTrack s r r'
  · rw [State.track?_putTrack_same t' h hs]; rfl
  · rw [State.track?_putTrack_other t' h hs]; exact hr

theorem putTrack_images_length (s : State) (r : TrackRef) (t : Track) :
    (s.putTrack r t).images.length = s.images.length := by
  unfold State.putTrack
  split <;> simp

theorem referencesOk_iff {s : State} :
    referencesOk s = true ↔ ∀ k h, s.drives.get k = some h → h < s.images.length := by
  have hall : referencesOk s = true ↔ (∀ h, s.drives.drive1 = some h → h < s.images.length) ∧
      (∀ h, s.drives.drive2 = some h → h < s.images.length) ∧
      ∀ h, s.drives.drive3 = some h → h < s.images.length := by
    unfold referencesOk
    cases s.drives.drive1 <;> cases s.drives.drive2 <;> cases s.drives.drive3 <;> simp
  rw [hall]
  constructor
  · rintro ⟨h1, h2, h3⟩ k h hk
    obtain ⟨hlo, hhi⟩ := Drives.get_some_range hk
    have : k = 1 ∨ k = 2 ∨ k = 3 := by omega
    rcases this with rfl | rfl | rfl
    · exact h1 h hk
    · exact h2 h hk
    · exact h3 h hk
  · exact fun hg => ⟨hg 1, hg 2, hg 3⟩

/-- The target of a transfer in three cases: a sector, a track, none (10_state.md R19). -/
theorem targetOk_iff {s : State} :
    targetOk s = true ↔
      (s.cmdInProgress = .writeSector ∧
        ∃ r v, s.xferTarget = some { track := r, sector := some v } ∧ (s.track? r).isSome = true) ∨
      (s.cmdInProgress = .writeTrack ∧
        ∃ r, s.xferTarget = some { track := r, sector := none } ∧ (s.track? r).isSome = true) ∨
      (s.cmdInProgress.isWrite = false ∧ s.xferTarget = none) := by
  unfold targetOk
  rcases s.xferTarget with _ | ⟨r, _ | v⟩ <;> cases s.cmdInProgress <;> simp [Transfer.isWrite]

/-- The target stays good while the transfer does and its track stays in place. -/
theorem targetOk_mono {s s' : State} (hc : s'.cmdInProgress = s.cmdInProgress)
    (hx : s'.xferTarget = s.xferTarget)
    (ht : ∀ x, s.xferTarget = some x → (s.track? x.track).isSome = true → (s'.track? x.track).isSome = true)
    (h : targetOk s = true) : targetOk s' = true := by
  rw [targetOk_iff, hc, hx]
  rcases targetOk_iff.1 h with ⟨hw, r, v, hr, hs⟩ | ⟨hw, r, hr, hs⟩ | hn
  · exact .inl ⟨hw, r, v, hr, ht _ hr hs⟩
  · exact .inr (.inl ⟨hw, r, hr, ht _ hr hs⟩)
  · exact .inr (.inr hn)

/-! ### The updates of the units -/

/-- One update of the CRC unit, the token walk, the readers, one track or the result. -/
inductive UnitUpdate : State → State → Prop
  | reply (r : Result) (s : State) : UnitUpdate s (reply r s)
  | leaveCrc (w : Word16) (s : State) : UnitUpdate s (leaveCrc w s)
  | crcStep (w : Word16) (s : State) : UnitUpdate s { s with crc := w }
  /-- A walk stays open with its running CRC in the register (46_track_buffer.md R198). -/
  | openWalk (w : Walk) (c : Word16) (s : State) : UnitUpdate s (Machine.leaveCrc c { s with walk := some w })
  | closeWalk (s : State) : UnitUpdate s { s with walk := none }
  | newReader {r : BitReader} (s : State) (hr : readerOk r = true) :
      UnitUpdate s { s with readers := s.readers ++ [r] }
  | putReader {s : State} {k : Nat} {r r' : BitReader} (hk : s.readers[k]? = some r)
      (hr : readerOk r = true → readerOk r' = true) : UnitUpdate s (s.putReader k r')
  | putTrack {s : State} {r : TrackRef} {t t' : Track} (ht : s.track? r = some t)
      (hw : trackWf t = true → trackWf t' = true) : UnitUpdate s (s.putTrack r t')

/-- What an operation of the units does: updates one after another. -/
abbrev UnitEffect : State → State → Prop := Relation.ReflTransGen UnitUpdate

theorem UnitUpdate.effect {s s' : State} (h : UnitUpdate s s') : UnitEffect s s' := .single h

/-- The fields the units work on; every other field stays. -/
def unitFrame (s s' : State) : Prop :=
  s' = { s with
    images := s'.images, readers := s'.readers, walk := s'.walk, crc := s'.crc, crcReady := s'.crcReady
    result := s'.result }

theorem unitFrame.trans {s s1 s2 : State} (h1 : unitFrame s s1) (h2 : unitFrame s1 s2) : unitFrame s s2 := by
  unfold unitFrame at *
  rw [h2, h1]

theorem UnitUpdate.frame {s s' : State} (h : UnitUpdate s s') : unitFrame s s' := by
  cases h with
  | putTrack => unfold unitFrame; rw [putTrack_eq]
  | reply => rfl
  | leaveCrc => rfl
  | crcStep => rfl
  | openWalk => rfl
  | closeWalk => rfl
  | newReader => rfl
  | putReader => rfl

theorem UnitEffect.frame {s s' : State} (h : UnitEffect s s') : unitFrame s s' := by
  induction h with
  | refl => rfl
  | tail _ hu ih => exact ih.trans hu.frame

/-- The units do not see a transfer: their updates go with its end. -/
theorem UnitUpdate.complete {s s' : State} (h : UnitUpdate s s') :
    UnitUpdate (complete s) (complete s') := by
  cases h with
  | reply r => exact .reply r (Machine.complete s)
  | leaveCrc w => exact .leaveCrc w (Machine.complete s)
  | crcStep w => exact .crcStep w (Machine.complete s)
  | openWalk w c => exact .openWalk w c (Machine.complete s)
  | closeWalk => exact .closeWalk (Machine.complete s)
  | newReader _ hr => exact .newReader (Machine.complete s) hr
  | putReader hk hr => exact .putReader (s := Machine.complete s) hk hr
  | @putTrack _ r t t' ht hw =>
    have hcomm : Machine.complete (s.putTrack r t') = (Machine.complete s).putTrack r t' := by
      rw [putTrack_eq s, putTrack_eq (Machine.complete s)]
      unfold State.putTrack
      rw [complete_drives]
      split <;> rfl
    rw [hcomm]
    exact .putTrack (s := Machine.complete s) ht hw

theorem UnitEffect.complete {s s' : State} (h : UnitEffect s s') : UnitEffect (complete s) (complete s') :=
  h.lift Machine.complete fun _ _ => UnitUpdate.complete

/-! ### Each update keeps the invariant -/

theorem Inv.reply {s : State} (h : Inv s) (r : Result) : Inv (reply r s) := { h with }

theorem Inv.leaveCrc {s : State} (h : Inv s) (w : Word16) : Inv (leaveCrc w s) :=
  { h with walk := fun _ => rfl }

theorem Inv.leaveCrc? {s : State} (h : Inv s) (w : Option Word16) : Inv (leaveCrc? w s) := by
  cases w with
  | none => exact h
  | some w => exact h.leaveCrc w

theorem Inv.putReader {s : State} (h : Inv s) {k : Nat} {r r' : BitReader} (hk : s.readers[k]? = some r)
    (hr : readerOk r = true → readerOk r' = true) : Inv (s.putReader k r') := by
  have hall := List.all_eq_true.1 h.readers
  refine { h with readers := List.all_eq_true.2 fun x hx => ?_ }
  rcases List.mem_or_eq_of_mem_set hx with hmem | rfl
  · exact hall x hmem
  · exact hr (hall r (List.mem_of_getElem? hk))

theorem Inv.putTrack {s : State} (h : Inv s) {r : TrackRef} {t t' : Track} (ht : s.track? r = some t)
    (hw : trackWf t = true → trackWf t' = true) : Inv (s.putTrack r t') := by
  have hmem : Memory.wf (s.putTrack r t').images = true :=
    Memory.wf_putTrack r h.memory (hw (Memory.wf_track h.memory ht))
  have href : referencesOk (s.putTrack r t') = true := by
    rw [referencesOk_iff, putTrack_images_length, putTrack_drives]
    exact referencesOk_iff.1 h.references
  have htarget : targetOk (s.putTrack r t') = true :=
    targetOk_mono (putTrack_cmdInProgress s r t') (putTrack_xferTarget s r t')
      (fun x _ => track?_putTrack_isSome t' ht x.track) h.target
  rw [putTrack_eq] at href htarget ⊢
  exact { h with memory := hmem, references := href, target := htarget }

theorem UnitUpdate.inv {s s' : State} (hu : UnitUpdate s s') (h : Inv s) : Inv s' := by
  cases hu with
  | reply r => exact h.reply r
  | leaveCrc w => exact h.leaveCrc w
  | crcStep w => exact { h with }
  | openWalk w c => exact { h with walk := fun _ => rfl }
  | closeWalk => exact { h with walk := nofun }
  | newReader _ hr => exact { h with readers := by simpa [hr] using h.readers }
  | putReader hk hr => exact h.putReader hk hr
  | putTrack ht hw => exact h.putTrack ht hw

theorem UnitEffect.inv {s s' : State} (hu : UnitEffect s s') (h : Inv s) : Inv s' := by
  induction hu with
  | refl => exact h
  | tail _ hu ih => exact hu.inv ih

/-! ### Readers in bounds -/

theorem readerOk_iff {r : BitReader} :
    readerOk r = true ↔ r.bitOffset ≤ r.totalBits ∧ r.totalBits ≤ 8 * r.buf.length ∧
      (r.skip = true → r.bitOffset % 2 = 0 ∨ r.bitOffset = r.totalBits) := by
  cases hs : r.skip <;> simp [readerOk, hs, and_assoc]

theorem newBitReader_ok {buf : List Byte} {totalBits : Nat} (order : BitOrder) (skip : Bool)
    (h : totalBits ≤ 8 * buf.length) : readerOk (newBitReader buf totalBits order skip) = true :=
  readerOk_iff.2 ⟨Nat.zero_le _, h, fun _ => .inl rfl⟩

/-- `next()` moves the cursor by one logical bit, or not at all (41_bitstream.md R112). -/
theorem BitReader.next?_ok {r r' : BitReader} {b : Option Bool} (h : r.next? = some (b, r'))
    (hr : readerOk r = true) : readerOk r' = true := by
  obtain ⟨hoff, hlen, hskip⟩ := readerOk_iff.1 hr
  rw [BitReader.next?_inBuffer hlen] at h
  split at h
  · cases h; exact hr
  · rename_i hnext
    cases h
    refine readerOk_iff.2 ⟨Nat.le_of_not_lt hnext, hlen, fun hs => .inl ?_⟩
    have hs : r.skip = true := hs
    have hstride : r.stride = 2 := by simp [BitReader.stride, hs]
    have heven := hskip hs
    rw [hstride] at hnext ⊢
    show (r.bitOffset + 2) % 2 = 0
    omega

/-- `seek(o)` stops at the end or on a logical bit (41_bitstream.md R114). -/
theorem BitReader.seek_ok {r : BitReader} (o : Nat) (hr : readerOk r = true) :
    readerOk (r.seek o).2 = true := by
  obtain ⟨-, hlen, -⟩ := readerOk_iff.1 hr
  unfold BitReader.seek
  split
  · exact readerOk_iff.2 ⟨le_refl _, hlen, fun _ => .inr rfl⟩
  · rename_i ho
    refine readerOk_iff.2 ⟨Nat.le_of_not_lt ho, hlen, fun hs => .inl ?_⟩
    have hs : r.skip = true := hs
    simp [BitReader.stride, hs]

theorem BitReader.drain_ok {fuel : Nat} {r r' : BitReader} {bits : List Bool}
    (h : BitReader.drain fuel r = some (bits, r')) (hr : readerOk r = true) : readerOk r' = true := by
  induction fuel generalizing r bits with
  | zero => cases h; exact hr
  | succ fuel ih =>
    unfold BitReader.drain at h
    split at h
    · rename_i b r1 hn
      have hr1 := BitReader.next?_ok hn hr
      split at h
      · rename_i bs r2 hd
        cases h
        exact ih hd hr1
      · cases h
    · rename_i r1 hn
      cases h
      exact BitReader.next?_ok hn hr
    · cases h

/-! ### What the shared operations of the units do -/

theorem leaveCrc?_effect (w : Option Word16) (s : State) : UnitEffect s (leaveCrc? w s) := by
  cases w with
  | none => exact .refl
  | some w => exact .single (.leaveCrc w s)

theorem checkView_effect {r : TrackRef} {v : View} {s s' : State}
    {check : Params → Density → List Byte → View → Option (Bool × Word16)}
    (h : checkView r v s check = .next s') : UnitEffect s s' := by
  obtain ⟨t, d, a, -, -, -, -, rfl⟩ := checkView_eq_next.1 h
  exact (UnitUpdate.leaveCrc a.2 s).effect.tail (.reply _ _)

theorem onWalk_effect {f : WalkRun → WalkRun} {s s' : State} (h : onWalk f s = .next s') : UnitEffect s s' := by
  rw [onWalk_eq_next.1 h]
  exact (UnitUpdate.openWalk _ _ s).effect.tail (.reply _ _)

theorem crcStep_effect {f : Word16 → Word16} {s s' : State} (h : crcStep f s = .next s') :
    UnitEffect s s' := by
  rw [crcStep_eq_next.1 h]
  exact (UnitUpdate.crcStep _ s).effect.tail (.reply _ _)

theorem writeSectorAt_effect {r : TrackRef} {v : View} {mark : Byte} {buf : List Byte} {s s' : State}
    (h : writeSectorAt r v mark buf s = .next s') : UnitEffect s s' := by
  obtain ⟨t, d, ⟨t', c⟩, ht, -, -, hw, rfl⟩ := writeSectorAt_eq_next.1 h
  exact (UnitUpdate.putTrack ht fun hwf => sectorWrite_wf hwf hw).effect.trans (leaveCrc?_effect c _)

theorem writeTrackAt_effect {r : TrackRef} {d : Density} {raw : List Byte} {s s' : State}
    (h : writeTrackAt r d raw s = .next s') : UnitEffect s s' := by
  obtain ⟨⟨t, ht⟩, rfl⟩ := writeTrackAt_eq_next.1 h
  exact ((UnitUpdate.putTrack ht fun _ => walkTrack_wf s.cfg d raw).effect.tail (.closeWalk _)).tail
    (.leaveCrc _ _)

theorem commit_effect {n : Nat} {s s' : State} (h : commit n s = .next s') : UnitEffect s s' := by
  rcases commit_eq_next.1 h with ⟨r, v, -, -, h⟩ | ⟨r, -, -, h⟩
  · exact writeSectorAt_effect h
  · exact writeTrackAt_effect h

/-! ### What the operations of the units do -/

theorem execNewBitStream_effect {buf : List Byte} {totalBits : Nat} {order : BitOrder} {skip : Bool}
    {s s' : State} (h : execNewBitStream buf totalBits order skip s = .next s') : UnitEffect s s' := by
  unfold execNewBitStream at h
  split at h
  · rename_i hlen
    cases h
    exact (UnitUpdate.newReader s (newBitReader_ok order skip hlen)).effect.tail (.reply _ _)
  · cases h

theorem execBitNext_effect {handle : Nat} {s s' : State} (h : execBitNext handle s = .next s') :
    UnitEffect s s' := by
  simp only [execBitNext, withReader_eq_next, orRefuse_eq_next, Host.Outcome.next.injEq] at h
  obtain ⟨r, hk, a, hn, rfl⟩ := h
  exact (UnitUpdate.putReader hk (BitReader.next?_ok hn)).effect.tail (.reply _ _)

theorem execBitSeek_effect {handle o : Nat} {s s' : State} (h : execBitSeek handle o s = .next s') :
    UnitEffect s s' := by
  simp only [execBitSeek, withReader_eq_next, Host.Outcome.next.injEq] at h
  obtain ⟨r, hk, rfl⟩ := h
  exact (UnitUpdate.putReader hk (BitReader.seek_ok o)).effect.tail (.reply _ _)

theorem execBitPositions_effect {handle : Nat} {s s' : State} (h : execBitPositions handle s = .next s') :
    UnitEffect s s' := by
  simp only [execBitPositions, withReader_eq_next, Host.Outcome.next.injEq] at h
  obtain ⟨r, -, rfl⟩ := h
  exact (UnitUpdate.reply _ s).effect

theorem execDecode_effect {fmt : TrackFormat} {src : RawSource} {s s' : State}
    (h : execDecode fmt src s = .next s') : UnitEffect s s' := by
  obtain ⟨d, -, h⟩ := withDensity_eq_next.1 h
  cases src with
  | bits raw =>
    cases h
    exact (UnitUpdate.reply _ s).effect
  | reader handle =>
    simp only [withReader_eq_next, orRefuse_eq_next, Host.Outcome.next.injEq] at h
    obtain ⟨r, hk, a, hd, rfl⟩ := h
    exact (UnitUpdate.putReader hk (BitReader.drain_ok hd)).effect.tail (.reply _ _)

theorem execEncode_effect {fmt : TrackFormat} {frags : List Fragment} {s s' : State}
    (h : execEncode fmt frags s = .next s') : UnitEffect s s' := by
  obtain ⟨d, -, h⟩ := withDensity_eq_next.1 h
  split at h
  · cases h
    exact (UnitUpdate.reply _ s).effect
  · cases h

theorem execDataModified_effect {r : TrackRef} {v : View} {s s' : State}
    (h : execDataModified r v s = .next s') : UnitEffect s s' := by
  simp only [execDataModified, withView_eq_next, withDensity_eq_next, orRefuse_eq_next,
    Host.Outcome.next.injEq] at h
  obtain ⟨t, ht, -, d, -, a, hm, rfl⟩ := h
  exact ((UnitUpdate.putTrack ht fun hwf => dataModified_wf hwf hm).effect.tail (.leaveCrc a.2 _)).tail
    (.reply _ _)

theorem execSectorSize_effect {r : TrackRef} {v : View} {s s' : State}
    (h : execSectorSize r v s = .next s') : UnitEffect s s' := by
  simp only [execSectorSize, withView_eq_next, orRefuse_eq_next, Host.Outcome.next.injEq] at h
  obtain ⟨t, -, -, n, -, rfl⟩ := h
  exact (UnitUpdate.reply _ s).effect

theorem execSectorMatches_effect {r : TrackRef} {v : View} {c i n : Int} {s s' : State}
    (h : execSectorMatches r v c i n s = .next s') : UnitEffect s s' := by
  simp only [execSectorMatches, withView_eq_next, Host.Outcome.next.injEq] at h
  obtain ⟨t, -, -, rfl⟩ := h
  exact (UnitUpdate.reply _ s).effect

theorem execSectorRead_effect {r : TrackRef} {v : View} {s s' : State}
    (h : execSectorRead r v s = .next s') : UnitEffect s s' := by
  simp only [execSectorRead, withView_eq_next, orRefuse_eq_next, Host.Outcome.next.injEq] at h
  obtain ⟨t, -, -, l, -, rfl⟩ := h
  exact (UnitUpdate.reply _ s).effect

theorem execSectorWrite_effect {r : TrackRef} {v : View} {mark : Byte} {buf : List Byte} {s s' : State}
    (h : execSectorWrite r v mark buf s = .next s') : UnitEffect s s' :=
  (UnitUpdate.reply .nothing s).effect.trans (writeSectorAt_effect h)

theorem execTrackWrite_effect {r : TrackRef} {fmt : TrackFormat} {raw : List Byte} {s s' : State}
    (h : execTrackWrite r fmt raw s = .next s') : UnitEffect s s' := by
  obtain ⟨d, -, h⟩ := withDensity_eq_next.1 h
  exact (UnitUpdate.reply .nothing s).effect.trans (writeTrackAt_effect h)

theorem execTrackRawWrite_effect {r : TrackRef} {fmt : TrackFormat} {clock : List Nat} {data : List Byte}
    {s s' : State} (h : execTrackRawWrite r fmt clock data s = .next s') : UnitEffect s s' := by
  unfold execTrackRawWrite at h
  split at h
  · cases h
  · rename_i hasc
    split at h
    · cases h
    · simp only [withTrack_eq_next, Host.Outcome.next.injEq] at h
      obtain ⟨t, ht, rfl⟩ := h
      exact (UnitUpdate.putTrack ht fun _ => rawTrack_wf (by simpa using hasc)).effect.tail (.reply _ _)

theorem execTrackLocateSectors_effect {r : TrackRef} {s s' : State}
    (h : execTrackLocateSectors r s = .next s') : UnitEffect s s' := by
  simp only [execTrackLocateSectors, withTrack_eq_next, Host.Outcome.next.injEq] at h
  obtain ⟨t, ht, rfl⟩ := h
  refine (UnitUpdate.putTrack ht fun hwf => relocate_wf ?_).effect.tail (.reply _ _)
  simp only [trackWf, Bool.and_eq_true] at hwf
  exact hwf.1.1

theorem execTrackGetSector_effect {r : TrackRef} {c i n : Int} {s s' : State}
    (h : execTrackGetSector r c i n s = .next s') : UnitEffect s s' := by
  simp only [execTrackGetSector, withTrack_eq_next, Host.Outcome.next.injEq] at h
  obtain ⟨t, -, rfl⟩ := h
  exact (UnitUpdate.reply _ s).effect

/-- Answering and nothing else. -/
theorem reply_effect {r : Result} {s s' : State} (h : Host.Outcome.next (reply r s) = (.next s' : Out)) :
    UnitEffect s s' := by
  cases h
  exact (UnitUpdate.reply r s).effect

/-- Answering with a value left in the CRC register. -/
theorem reply_leaveCrc_effect {r : Result} {w : Word16} {s s' : State}
    (h : Host.Outcome.next (reply r (leaveCrc w s)) = (.next s' : Out)) : UnitEffect s s' := by
  cases h
  exact (UnitUpdate.leaveCrc w s).effect.tail (.reply r _)

end Sys2Proof.Machine
end

section
/-! SUPPORT. What the controller does to the state when it answers: the prelude of a register access, the head
movements of Type I, the ends of every other rule but a Data-port write, and that write; and that each of them
keeps the invariant. -/

namespace Sys2Proof.Machine

/-! ### The common part of a command write -/

@[simp] theorem commandWrite_drives (typeI : Bool) (s : State) :
    (commandWrite typeI s).drives = s.drives := by rw [commandWrite_eq]
@[simp] theorem commandWrite_images (typeI : Bool) (s : State) :
    (commandWrite typeI s).images = s.images := by rw [commandWrite_eq]
@[simp] theorem commandWrite_trackSelect (typeI : Bool) (s : State) :
    (commandWrite typeI s).trackSelect = s.trackSelect := by rw [commandWrite_eq]
@[simp] theorem commandWrite_stepDir (typeI : Bool) (s : State) :
    (commandWrite typeI s).stepDir = s.stepDir := by rw [commandWrite_eq]
@[simp] theorem commandWrite_cfg (typeI : Bool) (s : State) :
    (commandWrite typeI s).cfg = s.cfg := by rw [commandWrite_eq]
@[simp] theorem commandWrite_statusTypeI (typeI : Bool) (s : State) :
    (commandWrite typeI s).statusTypeI = typeI := by rw [commandWrite_eq]
@[simp] theorem commandWrite_cmdInProgress (typeI : Bool) (s : State) :
    (commandWrite typeI s).cmdInProgress = .none := by rw [commandWrite_eq]

/-- The conditions a scan raises stand in the status register. -/
theorem raiseVerify_eq (r : VerifyScan) (s : State) :
    raiseVerify r s = { s with statusRegister := (raiseVerify r s).statusRegister } := by
  unfold raiseVerify
  cases r.found <;> cases r.bad <;> rfl

/-- A failed check stands in the status register. -/
theorem reportCheck_eq (ok : Bool) (s : State) :
    reportCheck ok s = { s with statusRegister := (reportCheck ok s).statusRegister } := by
  cases ok <;> rfl

/-! ### The head movements -/

/-- The movements of the five Type I commands (48_controller_type1_type4.md R251 to R255). -/
inductive HeadMove : (State → State) → Prop
  | restore : HeadMove moveRestore
  | seek : HeadMove moveSeek
  | step (u : Bool) : HeadMove (moveStep u)
  | stepIn (u : Bool) : HeadMove (moveStepIn u)
  | stepOut (u : Bool) : HeadMove (moveStepOut u)

theorem HeadMove.frame {move : State → State} (h : HeadMove move) (s : State) :
    move s = { s with
      trackSelect := (move s).trackSelect, trackRegister := (move s).trackRegister
      stepDir := (move s).stepDir } := by
  cases h <;> rfl

theorem clampTrack_le (p : Params) (x : Int) : clampTrack p x ≤ p.maxCylinder := by
  unfold clampTrack
  omega

/-- A movement ends on a cylinder there is (10_state.md R16). -/
theorem HeadMove.trackSelect_le {move : State → State} (h : HeadMove move) (s : State) :
    (move s).trackSelect ≤ s.cfg.maxCylinder := by
  cases h with
  | restore => exact Nat.zero_le _
  | seek => exact clampTrack_le _ _
  | step => exact clampTrack_le _ _
  | stepIn => exact clampTrack_le _ _
  | stepOut => exact clampTrack_le _ _

/-! ### The ends of the other rules -/

/-- Every way in which the rule of a register access, run after the prelude, may end: all but the Type I commands
and a Data-port write. -/
inductive ControllerEffect (s : State) : State → Prop
  | replied (r : Result) : ControllerEffect s (reply r s)
  | trackRegister (b : Byte) : ControllerEffect s (reply .nothing { s with trackRegister := b })
  | sectorRegister (b : Byte) : ControllerEffect s (reply .nothing { s with sectorRegister := b })
  | byteRead (l : Byte) (hr : s.cmdInProgress.isRead = true) (hl : s.bytesLeft - 1 ≠ 0) :
      ControllerEffect s (replyBus l { s with
        dataRegister := l, readDataPtr := s.readDataPtr + 1, bytesLeft := s.bytesLeft - 1 })
  | lastByteRead (l : Byte) :
      ControllerEffect s (replyBus l (complete { s with
        dataRegister := l, readDataPtr := s.readDataPtr + 1, bytesLeft := s.bytesLeft - 1 }))
  | interrupted : ControllerEffect s (forceInterrupt s)
  | failed (b : StatusBit) (hb : b = .notFound ∨ b = .writeProtected) :
      ControllerEffect s (raiseCondition (s.cfg.mask b) (commandWrite false s))
  | sectorRead (buf : List Byte) (mark : Byte) (ok : Bool) (w : Word16) (hb : 0 < buf.length) :
      ControllerEffect s (stageRead .readSector buf (reportCheck ok (leaveCrc w
        { commandWrite false s with
          dataMark := mark
          statusRegister := reportMark (commandWrite false s).cfg mark (commandWrite false s).statusRegister })))
  | addressRead (buf : List Byte) (ok : Bool) (w : Word16) (hb : 0 < buf.length) :
      ControllerEffect s (stageRead .readAddress buf (reportCheck ok (leaveCrc w (commandWrite false s))))
  | trackRead (buf : List Byte) (hb : 0 < buf.length) :
      ControllerEffect s (stageRead .readTrack buf (commandWrite false s))
  | sectorWrite (r : TrackRef) (v : View) (buf : List Byte) (mark : Byte)
      (hr : (s.track? r).isSome = true) (hb : 0 < buf.length) :
      ControllerEffect s (stageWrite .writeSector { track := r, sector := some v } buf
        { commandWrite false s with dataMark := mark })
  | trackWrite (r : TrackRef) (hr : (s.track? r).isSome = true) :
      ControllerEffect s (stageWrite .writeTrack { track := r, sector := none }
        (List.replicate s.cfg.trackBytesFm 0x00#8) (commandWrite false s))

theorem size?_pos {data : List Byte} {v : View} {n : Nat} (h : size? data v = some n) : 0 < n := by
  obtain ⟨c, -, rfl⟩ := Option.map_eq_some_iff.1 h
  unfold sizeOfCode
  rw [Nat.shiftLeft_eq]
  exact Nat.mul_pos (by decide) (Nat.two_pow_pos _)

theorem sectorRead_length_pos {data l : List Byte} {v : View} (h : sectorRead data v = some l) :
    0 < l.length := by
  unfold Machine.sectorRead at h
  split at h
  · rename_i n hn
    rw [memRead_length h]
    exact size?_pos hn
  · cases h

theorem failWith_effect {b : StatusBit} {s s' : State} (hb : b = .notFound ∨ b = .writeProtected)
    (h : failWith b (commandWrite false s) = .next s') : ControllerEffect s s' := by
  cases h
  rw [commandWrite_cfg]
  exact .failed b hb

/-- The current track is there, seen before or after the common part of a command write. -/
theorem curTrack_commandWrite {typeI : Bool} {s : State} {t : Track}
    (h : (commandWrite typeI s).curTrack = some t) :
    (s.track? (commandWrite typeI s).curRef).isSome = true := by
  unfold State.curTrack at h
  rw [track?_congr (commandWrite_drives typeI s) (commandWrite_images typeI s)] at h
  rw [h]
  rfl

theorem lookup_curTrack {s : State} {t : Track} {v : View} (h : lookup s = some (t, v)) :
    s.curTrack = some t := by
  unfold lookup at h
  split at h
  · cases h
  · rename_i t' ht
    split at h
    · cases h
    · cases h
      exact ht

theorem cmdReadSector_effect {s s' : State} (h : cmdReadSector s = .next s') : ControllerEffect s s' := by
  simp only [cmdReadSector] at h
  split at h
  · exact failWith_effect (.inl rfl) h
  · simp only [withDensity_eq_next, orRefuse_eq_next, Host.Outcome.next.injEq] at h
    obtain ⟨d, -, mark, -, buf, hbuf, check, -, rfl⟩ := h
    exact .sectorRead buf mark check.1 check.2 (sectorRead_length_pos hbuf)

theorem cmdWriteSector_effect {a1 a0 : Bool} {s s' : State} (h : cmdWriteSector a1 a0 s = .next s') :
    ControllerEffect s s' := by
  simp only [cmdWriteSector] at h
  split at h
  · exact failWith_effect (.inr rfl) h
  · split at h
    · exact failWith_effect (.inl rfl) h
    · rename_i t v hlook
      simp only [orRefuse_eq_next, Host.Outcome.next.injEq] at h
      obtain ⟨n, hn, rfl⟩ := h
      exact .sectorWrite _ v _ _ (curTrack_commandWrite (lookup_curTrack hlook)) (by simpa using size?_pos hn)

theorem cmdReadAddress_effect {s s' : State} (h : cmdReadAddress s = .next s') : ControllerEffect s s' := by
  simp only [cmdReadAddress] at h
  split at h
  · exact failWith_effect (.inl rfl) h
  · split at h
    · exact failWith_effect (.inl rfl) h
    · simp only [withDensity_eq_next, orRefuse_eq_next, Host.Outcome.next.injEq] at h
      obtain ⟨d, -, buf, hbuf, check, -, rfl⟩ := h
      exact .addressRead buf check.1 check.2 (by rw [memRead_length hbuf]; decide)

theorem cmdReadTrack_effect {s s' : State} (h : cmdReadTrack s = .next s') : ControllerEffect s s' := by
  simp only [cmdReadTrack] at h
  split at h
  · exact failWith_effect (.inl rfl) h
  · split at h
    · exact failWith_effect (.inl rfl) h
    · rename_i t _ hne
      cases h
      exact .trackRead t.data (Nat.pos_of_ne_zero fun hz => hne (.inr hz))

theorem cmdWriteTrack_effect {s s' : State} (h : cmdWriteTrack s = .next s') : ControllerEffect s s' := by
  simp only [cmdWriteTrack] at h
  split at h
  · exact failWith_effect (.inr rfl) h
  · split at h
    · exact failWith_effect (.inl rfl) h
    · rename_i t ht
      cases h
      rw [commandWrite_cfg]
      exact .trackWrite _ (curTrack_commandWrite ht)

theorem cmdForceInterrupt_effect {s s' : State} (h : cmdForceInterrupt s = .next s') :
    ControllerEffect s s' := by
  cases h
  exact .interrupted

theorem readData_effect {s s' : State} (h : readData s = .next s') : ControllerEffect s s' := by
  unfold readData at h
  split at h
  · rename_i hr
    obtain ⟨l, -, rfl⟩ := transferRead_eq_next.1 h
    split
    · exact .lastByteRead l
    · rename_i hl
      exact .byteRead l hr hl
  · cases h
    exact .replied _

/-- The commands below 0x80 are the five of Type I (30_encoding.md R62). -/
theorem decodeOp_typeOne {cb : Byte}
    (h : decodeOp cb ∈ [Cmd.restore, .seek, .step, .stepIn, .stepOut]) : cb.getLsbD 7 = false := by
  have hbit : cb.getLsbD 7 = (cb.extractLsb' 4 4).getLsbD 3 := by simp
  rw [hbit]
  unfold decodeOp at h
  generalize cb.extractLsb' 4 4 = n at h ⊢
  revert n
  decide

/-- A command byte written to the Command port moves the head, if it is below 0x80, or ends as another rule
does. -/
theorem runCommand_effect {cb : Byte} {s s' : State} (h : runCommand cb s = .next s') :
    (cb.getLsbD 7 = false ∧ ∃ v move, HeadMove move ∧ typeOne v move s = .next s') ∨
      ControllerEffect s s' := by
  have htype := decodeOp_typeOne (cb := cb)
  unfold runCommand at h
  generalize decodeOp cb = op at h htype
  cases op with
  | restore => exact .inl ⟨htype (by decide), _, _, .restore, h⟩
  | seek => exact .inl ⟨htype (by decide), _, _, .seek, h⟩
  | step => exact .inl ⟨htype (by decide), _, _, .step _, h⟩
  | stepIn => exact .inl ⟨htype (by decide), _, _, .stepIn _, h⟩
  | stepOut => exact .inl ⟨htype (by decide), _, _, .stepOut _, h⟩
  | readSector => exact .inr (cmdReadSector_effect h)
  | writeSector => exact .inr (cmdWriteSector_effect h)
  | readAddress => exact .inr (cmdReadAddress_effect h)
  | forceInterrupt => exact .inr (cmdForceInterrupt_effect h)
  | readTrack => exact .inr (cmdReadTrack_effect h)
  | writeTrack => exact .inr (cmdWriteTrack_effect h)

/-! ### The invariant between transfers -/

/-- With no transfer, any status of the form and any earlier start of the clock keep the invariant. -/
theorem Inv.idle {s : State} (h : Inv s) {typeI : Bool} {w : Byte} {t0 : Nat}
    (hw : StatusOk s.cfg typeI false w) (ht : t0 ≤ s.now) :
    Inv { s with
      statusRegister := w, statusTypeI := typeI, startClock := t0, cmdInProgress := .none
      xferTarget := none } :=
  have hs : State.statusOk { s with
    statusRegister := w, statusTypeI := typeI, startClock := t0, cmdInProgress := .none
    xferTarget := none } := hw
  { h with
    busy := hs.busy_iff, request := hs.request_iff, ready := hs.ready, lost := hs.lost
    typeOne := fun _ => rfl, transfer := rfl, target := rfl, clock := ht }

theorem Inv.complete {s : State} (h : Inv s) : Inv (complete s) := h.idle h.statusOk.ended h.clock

theorem Inv.commandWrite {s : State} (h : Inv s) (typeI : Bool) : Inv (commandWrite typeI s) := by
  rw [commandWrite_eq]
  exact { h.idle (StatusOk.zero s.cfg typeI) (le_refl s.now) with }

theorem Inv.forceInterrupt {s : State} (h : Inv s) : Inv (forceInterrupt s) := by
  rw [forceInterrupt_eq, State.drqSet, clearBits_drq_busy]
  exact { h.complete with }

/-- Any status of the form keeps the invariant. -/
theorem Inv.setStatus {s : State} (h : Inv s) {w : Byte}
    (hw : StatusOk s.cfg s.statusTypeI (decide (s.cmdInProgress ≠ .none)) w) :
    Inv { s with statusRegister := w } :=
  have hs : State.statusOk { s with statusRegister := w } := hw
  { h with busy := hs.busy_iff, request := hs.request_iff, ready := hs.ready, lost := hs.lost }

/-- Raising a condition that disturbs nothing. -/
theorem Inv.raise {s : State} (h : Inv s) {m : Byte} (hm : StatusOk s.cfg s.statusTypeI false m) :
    Inv (raiseCondition m s) := h.setStatus (h.statusOk.or hm)

/-- The data mark a Read Sector found, reported. -/
theorem Inv.markReported {s : State} (h : Inv s) (hi : s.cmdInProgress = .none) (mark : Byte) :
    Inv { s with dataMark := mark, statusRegister := reportMark s.cfg mark s.statusRegister } := by
  have hs := h.statusOk
  rw [State.statusOk, hi] at hs
  exact { h.setStatus (w := reportMark s.cfg mark s.statusRegister) (by
    rw [hi]; exact hs.reportMark h.params mark) with }

theorem Inv.raiseVerify {s : State} (h : Inv s) (r : VerifyScan) : Inv (raiseVerify r s) := by
  have hseek := h.raise (StatusOk.mask_seekError h.params s.statusTypeI)
  unfold Machine.raiseVerify
  split
  · exact h
  · simp only
    split
    · exact hseek.raise (StatusOk.mask_crcError h.params s.statusTypeI)
    · exact hseek

theorem Inv.reportCheck {s : State} (h : Inv s) (ok : Bool) : Inv (reportCheck ok s) := by
  cases ok
  · exact h.raise (StatusOk.mask_crcError h.params s.statusTypeI)
  · exact h

theorem Inv.assembleStatus {s : State} (h : Inv s) (ht : s.statusTypeI = true) : Inv (assembleStatus s) :=
  h.raise (by rw [ht]; exact StatusOk.typeOneBits h.params)

theorem Inv.headMove {s : State} (h : Inv s) {move : State → State} (hm : HeadMove move) : Inv (move s) := by
  have hle := hm.trackSelect_le s
  rw [hm.frame s] at hle ⊢
  exact { h with cylinder := hle }

/-- A Type I command (48_controller_type1_type4.md R250). -/
theorem Inv.ofTypeOne {s s' : State} (h : Inv s) {v : Bool} {move : State → State} (hm : HeadMove move)
    (hr : Machine.typeOne v move s = .next s') : Inv s' := by
  have hmove : Inv (move (Machine.commandWrite true s)) := (h.commandWrite true).headMove hm
  have htype : (move (Machine.commandWrite true s)).statusTypeI = true := by
    rw [hm.frame]
    exact commandWrite_statusTypeI true s
  rcases typeOne_eq_next.1 hr with ⟨-, rfl⟩ | ⟨-, r, -, rfl⟩
  · exact hmove.assembleStatus htype
  · refine ((hmove.leaveCrc? r.crc).raiseVerify r).assembleStatus ?_
    rw [raiseVerify_eq]
    simpa using htype

/-! ### The invariant during a transfer -/

/-- A transfer is read or written, not both (49_controller_type2_type3.md R282, R284). -/
theorem Transfer.isWrite_of_isRead {k : Transfer} (h : k.isRead = true) : k.isWrite = false := by
  cases k <;> simp [Transfer.isRead, Transfer.isWrite] at h ⊢

theorem transferOk_iff_of_isRead {s : State} (hr : s.cmdInProgress.isRead = true) :
    transferOk s = true ↔ s.dataBuffer.length = s.bytesExpected ∧ 0 < s.bytesLeft ∧
      s.readDataPtr + s.bytesLeft = s.bytesExpected := by
  cases hc : s.cmdInProgress <;> simp [hc, Transfer.isRead, transferOk, and_assoc] at hr ⊢

theorem transferOk_iff_of_isWrite {s : State} (hw : s.cmdInProgress.isWrite = true) :
    transferOk s = true ↔ s.dataBuffer.length = s.bytesExpected ∧ 0 < s.bytesLeft ∧
      s.bytesLeft ≤ s.bytesExpected := by
  cases hc : s.cmdInProgress <;> simp [hc, Transfer.isWrite, transferOk, and_assoc] at hw ⊢

/-- The status of a staged transfer. -/
theorem Inv.staged {s : State} (h : Inv s) (hi : s.cmdInProgress = .none) (ht : s.statusTypeI = false)
    {kind : Transfer} (hk : kind ≠ .none) (buf : List Byte) : (stage kind buf s).statusOk := by
  have hs := h.statusOk
  rw [State.statusOk, hi, ht] at hs
  show StatusOk s.cfg s.statusTypeI (decide (kind ≠ .none)) (stagedStatus s.cfg s.statusRegister)
  rw [ht, decide_eq_true hk]
  exact hs.staged h.params

theorem Inv.stageRead {s : State} (h : Inv s) (hi : s.cmdInProgress = .none) (ht : s.statusTypeI = false)
    {kind : Transfer} (hk : kind.isRead = true) {buf : List Byte} (hb : 0 < buf.length) :
    Inv (stageRead kind buf s) :=
  have hs : (Machine.stageRead kind buf s).statusOk := h.staged hi ht (by rintro rfl; cases hk) buf
  have htarget : s.xferTarget = none := by
    rcases targetOk_iff.1 h.target with ⟨hc, -⟩ | ⟨hc, -⟩ | ⟨-, hx⟩
    · rw [hi] at hc; cases hc
    · rw [hi] at hc; cases hc
    · exact hx
  { h with
    busy := hs.busy_iff, request := hs.request_iff, ready := hs.ready, lost := hs.lost
    typeOne := fun h1 => by rw [show s.statusTypeI = true from h1] at ht; cases ht
    transfer := (transferOk_iff_of_isRead hk).2 ⟨rfl, hb, Nat.zero_add _⟩
    target := targetOk_iff.2 (.inr (.inr ⟨Transfer.isWrite_of_isRead hk, htarget⟩)) }

theorem Inv.stageWrite {s : State} (h : Inv s) (hi : s.cmdInProgress = .none) (ht : s.statusTypeI = false)
    {kind : Transfer} {x : XferTarget} (hk : kind.isWrite = true) {buf : List Byte} (hb : 0 < buf.length)
    (hx : targetOk (stageWrite kind x buf s) = true) : Inv (stageWrite kind x buf s) :=
  have hs : (Machine.stageWrite kind x buf s).statusOk := h.staged hi ht (by rintro rfl; cases hk) buf
  { h with
    busy := hs.busy_iff, request := hs.request_iff, ready := hs.ready, lost := hs.lost
    typeOne := fun h1 => by rw [show s.statusTypeI = true from h1] at ht; cases ht
    transfer := (transferOk_iff_of_isWrite hk).2 ⟨rfl, hb, le_refl _⟩
    target := hx }

/-- A byte read that is not the last leaves the counters in step (49_controller_type2_type3.md R282). -/
theorem transferOk_byteRead {s : State} (l : Byte) (hr : s.cmdInProgress.isRead = true)
    (hl : s.bytesLeft - 1 ≠ 0) (ht : transferOk s = true) :
    transferOk (replyBus l { s with
      dataRegister := l, readDataPtr := s.readDataPtr + 1, bytesLeft := s.bytesLeft - 1 }) = true := by
  obtain ⟨hlen, hleft, hptr⟩ := (transferOk_iff_of_isRead hr).1 ht
  rw [transferOk_iff_of_isRead (by exact hr)]
  refine ⟨hlen, Nat.pos_of_ne_zero hl, ?_⟩
  show s.readDataPtr + 1 + (s.bytesLeft - 1) = s.bytesExpected
  omega

/-- A byte written that is not the last leaves the counters in step (49_controller_type2_type3.md R284). -/
theorem transferOk_byteWritten {s : State} (at_ : Nat) (l : Byte) (hw : s.cmdInProgress.isWrite = true)
    (hl : s.bytesLeft - 1 ≠ 0) (ht : transferOk s = true) :
    transferOk { s with dataBuffer := s.dataBuffer.set at_ l, bytesLeft := s.bytesLeft - 1 } = true := by
  obtain ⟨hlen, hleft, hle⟩ := (transferOk_iff_of_isWrite hw).1 ht
  rw [transferOk_iff_of_isWrite (by exact hw)]
  exact ⟨List.length_set.trans hlen, Nat.pos_of_ne_zero hl, (Nat.sub_le _ _).trans hle⟩

theorem Params.trackBytesFm_pos {p : Params} (h : p.wf = true) : 0 < p.trackBytesFm := by
  simp only [Params.wf, Bool.and_eq_true, decide_eq_true_eq] at h
  exact h.1.1.1.2

/-- A track is there after the common part of a command write where it was there before. -/
theorem track?_commandWrite_isSome {typeI : Bool} {s : State} {r : TrackRef}
    (h : (s.track? r).isSome = true) : ((commandWrite typeI s).track? r).isSome = true := by
  rwa [track?_congr (commandWrite_drives typeI s) (commandWrite_images typeI s)]

theorem Inv.ofControllerEffect {s s' : State} (h : Inv s) (he : ControllerEffect s s') : Inv s' := by
  have hcmd : Inv (Machine.commandWrite false s) := h.commandWrite false
  have hidle := commandWrite_cmdInProgress false s
  have htype := commandWrite_statusTypeI false s
  cases he with
  | replied r => exact h.reply r
  | trackRegister b => exact { h with }
  | sectorRegister b => exact { h with }
  | byteRead l hr hl =>
    have ht := transferOk_byteRead l hr hl h.transfer
    exact { h with transfer := ht }
  | lastByteRead l => exact { h.complete with }
  | interrupted => exact h.forceInterrupt
  | failed b hb =>
    refine hcmd.raise ?_
    rw [commandWrite_cfg]
    rcases hb with rfl | rfl
    · exact StatusOk.mask_notFound h.params _
    · exact StatusOk.mask_writeProtected h.params _
  | sectorRead buf mark ok w hb =>
    have hcheck := ((hcmd.markReported hidle mark).leaveCrc w).reportCheck ok
    rw [reportCheck_eq] at hcheck ⊢
    exact hcheck.stageRead hidle htype rfl hb
  | addressRead buf ok w hb =>
    have hcheck := (hcmd.leaveCrc w).reportCheck ok
    rw [reportCheck_eq] at hcheck ⊢
    exact hcheck.stageRead hidle htype rfl hb
  | trackRead buf hb => exact hcmd.stageRead hidle htype rfl hb
  | sectorWrite r v buf mark hr hb =>
    have hmark : Inv { Machine.commandWrite false s with dataMark := mark } := { hcmd with }
    have hthere := track?_commandWrite_isSome (typeI := false) hr
    exact hmark.stageWrite hidle htype rfl hb (targetOk_iff.2 (.inl ⟨rfl, r, v, rfl, hthere⟩))
  | trackWrite r hr =>
    have hpos : 0 < (List.replicate s.cfg.trackBytesFm 0x00#8).length := by
      simpa using Params.trackBytesFm_pos h.params
    have hthere := track?_commandWrite_isSome (typeI := false) hr
    exact hcmd.stageWrite hidle htype rfl hpos (targetOk_iff.2 (.inr (.inl ⟨rfl, r, rfl, hthere⟩)))

/-- The end of a transfer after its commit: the units do not see the transfer, so it may as well end first. -/
theorem Inv.complete_commit {s s' : State} {n : Nat} (h : Inv (Machine.complete s))
    (hc : commit n s = .next s') : Inv (Machine.complete s') := (commit_effect hc).complete.inv h

/-- A Data-port write during a write transfer (49_controller_type2_type3.md R284). -/
theorem Inv.transferWrite {s s' : State} (h : Inv s) {v : Byte} (hw : s.cmdInProgress.isWrite = true)
    (hr : transferWrite v s = .next s') : Inv s' := by
  obtain ⟨-, ⟨hl, rfl⟩ | ⟨-, s1, hc, rfl⟩⟩ := transferWrite_eq_next.1 hr
  · have ht := transferOk_byteWritten (s.bytesExpected - s.bytesLeft) v hw hl h.transfer
    exact { h with transfer := ht }
  · refine Inv.complete_commit ?_ hc
    exact { h.complete with }

/-- A Data-port write (47_controller_interface.md R229). -/
theorem Inv.writeData {s s' : State} (h : Inv s) {v : Byte} (hr : writeData v s = .next s') : Inv s' := by
  have hreg : Inv (Machine.reply .nothing { s with dataRegister := v }) := { h with }
  unfold Machine.writeData at hr
  simp only at hr
  split at hr
  · rename_i hw
    exact hreg.transferWrite hw hr
  · cases hr
    exact hreg

/-- The prelude of a register access (60_exceptions.md R313). -/
theorem Inv.checkRevolution {s s' : State} (h : Inv s) (hr : checkRevolution s = .next s') : Inv s' := by
  rcases checkRevolution_eq_next.1 hr with ⟨-, rfl⟩ | ⟨-, -, rfl⟩ | ⟨-, -, s1, hc, rfl⟩
  · exact h
  · exact h.complete
  · exact Inv.complete_commit h.complete hc

/-! ### The latch, the environment -/

/-- Every bit of the latch is followed by the selected drive and head (47_controller_interface.md R230). -/
theorem Inv.cruWrite {s : State} (h : Inv s) (n : Nat) (v : Bool) : Inv (cruWrite n v s) :=
  { h with drive := rfl, head := rfl }

/-- `Reset` (70_reset_and_hazards.md R330). -/
theorem Inv.resetController {s : State} (h : Inv s) : Inv (resetController s) :=
  { h.idle (StatusOk.zero s.cfg true) (Nat.zero_le s.now) with
    drive := (by decide : 0 = driveOf 0x00#8), head := (by decide : 0#1 = headOf 0x00#8)
    cylinder := Nat.zero_le _, walk := nofun }

theorem Inv.setClock {s s' : State} (h : Inv s) {t : Nat} (hr : setClock t s = .next s') : Inv s' := by
  unfold Machine.setClock at hr
  split at hr
  · cases hr
  · rename_i hle
    cases hr
    exact { h with clock := h.clock.trans (Nat.le_of_not_lt hle) }

/-- Only a write transfer has a target (10_state.md R19). -/
theorem isWrite_of_xferTarget {s : State} {x : XferTarget} (h : targetOk s = true)
    (hx : s.xferTarget = some x) : s.cmdInProgress = .writeSector ∨ s.cmdInProgress = .writeTrack := by
  rcases targetOk_iff.1 h with ⟨hc, -⟩ | ⟨hc, -⟩ | ⟨-, hn⟩
  · exact .inl hc
  · exact .inr hc
  · rw [hx] at hn; cases hn

/-- The drive a target was captured from is in use (70_reset_and_hazards.md R334). -/
theorem driveInUse_of_xferTarget {s : State} {x : XferTarget} (h : targetOk s = true)
    (hx : s.xferTarget = some x) (ht : (s.track? x.track).isSome = true) :
    driveInUse x.track.drive s = true := by
  obtain ⟨t, ht⟩ := Option.isSome_iff_exists.1 ht
  obtain ⟨j, -, hj, -⟩ := State.track?_eq_some ht
  rcases isWrite_of_xferTarget h hx with hc | hc <;> simp [driveInUse, targetInDrive, hc, hx, hj]

theorem driveOk_iff {k : Nat} : driveOk k = true ↔ 1 ≤ k ∧ k ≤ 3 := by
  simp only [driveOk, Bool.and_eq_true, decide_eq_true_eq]
  rfl

theorem referencesOk_setDrive {s : State} {k : Nat} {x : Option Nat} {images : List DiskImage}
    (hk : driveOk k = true) (hi : s.images <+: images) (hx : ∀ j, x = some j → j < images.length)
    (h : referencesOk s = true) :
    referencesOk { s with drives := s.drives.set k x, images := images } = true := by
  obtain ⟨hlo, hhi⟩ := driveOk_iff.1 hk
  rw [referencesOk_iff]
  intro j i hj
  by_cases hjk : j = k
  · subst hjk
    exact hx i ((Drives.get_set_same _ _ _ hlo hhi).symm.trans hj)
  · have hold := (Drives.get_set_other s.drives x hjk).symm.trans hj
    exact (referencesOk_iff.1 h j i hold).trans_le hi.length_le

/-- The target of a transfer stays where it is: its drive is in use. -/
theorem targetOk_setDrive {s : State} {k : Nat} {x : Option Nat} {images : List DiskImage}
    (hf : driveInUse k s = false) (hi : s.images <+: images) (h : targetOk s = true) :
    targetOk { s with drives := s.drives.set k x, images := images } = true := by
  refine targetOk_mono (s := s) rfl rfl (fun y hy ht => ?_) h
  have hne : y.track.drive ≠ k := by
    rintro rfl
    rw [driveInUse_of_xferTarget h hy ht] at hf
    cases hf
  obtain ⟨t, ht⟩ := Option.isSome_iff_exists.1 ht
  obtain ⟨j, img, hj, himg, hget, -⟩ := State.track?_eq_some ht
  have himg' : images[j]? = some img := by
    obtain ⟨l, rfl⟩ := hi
    rw [List.getElem?_append_left (List.getElem?_eq_some_iff.1 himg).1, himg]
  simp [State.track?, State.imageIn, Drives.get_set_other s.drives x hne, hj, himg', hget]

/-- A drive that is not in use may change, and images may be added after the others. -/
theorem Inv.setDrive {s : State} (h : Inv s) {k : Nat} {x : Option Nat} {images : List DiskImage}
    (hk : driveOk k = true) (hf : driveInUse k s = false) (hi : s.images <+: images)
    (hm : Memory.wf images = true) (hx : ∀ j, x = some j → j < images.length) :
    Inv { s with drives := s.drives.set k x, images := images } :=
  have href := referencesOk_setDrive hk hi hx h.references
  have htarget := targetOk_setDrive (x := x) hf hi h.target
  { h with memory := hm, references := href, target := htarget }

theorem Inv.insertImage {s s' : State} (h : Inv s) {k : Nat} {img : ImageOperand}
    (hr : insertImage k img s = .next s') : Inv s' := by
  have hm := insertImage_memory_wf h.memory hr
  obtain ⟨hk, hf, j, images, rfl, ⟨i, -, -, rfl, rfl⟩ | ⟨-, hj, rfl⟩⟩ := insertImage_eq_next.1 hr
  · exact (h.setDrive hk hf ⟨[i], rfl⟩ hm (by simp)).reply .nothing
  · exact (h.setDrive hk hf ⟨[], List.append_nil _⟩ hm (by simpa using hj)).reply .nothing

theorem Inv.ejectImage {s s' : State} (h : Inv s) {k : Nat} (hr : ejectImage k s = .next s') : Inv s' := by
  obtain ⟨hk, hf, rfl⟩ := ejectImage_eq_next.1 hr
  exact (h.setDrive hk hf ⟨[], List.append_nil _⟩ h.memory (by simp)).reply .nothing

end Sys2Proof.Machine
end

section
/-! SUPPORT and proofs. What every operation does when it answers, and from it the statements about the machine as
a whole: the invariant, the head, the tracks; then the two about reset values and the CRC register. -/

namespace Sys2Proof.Machine

/-! ### What every operation does -/

/-- The operations that are Type I commands: the five rows, and their bytes written to the Command port, bit 7 of
the inverted bus byte clear (20_memory.md R46, 30_encoding.md R62). -/
inductive HeadCommand : Instr → Prop
  | restore (h v : Bool) (r : BitVec 2) : HeadCommand (.restore h v r)
  | seek (h v : Bool) (r : BitVec 2) : HeadCommand (.seek h v r)
  | step (u h v : Bool) (r : BitVec 2) : HeadCommand (.step u h v r)
  | stepIn (u h v : Bool) (r : BitVec 2) : HeadCommand (.stepin u h v r)
  | stepOut (u h v : Bool) (r : BitVec 2) : HeadCommand (.stepout u h v r)
  | port (bus : Byte) (hb : bus.getLsbD 7 = true) : HeadCommand (.wcmd bus)

theorem HeadCommand.format_ne_cru8 {i : Instr} (h : HeadCommand i) : i.format ≠ .cru8 := by
  cases h <;> nofun

/-- What an operation does when it answers: a register access runs the prelude and then a Type I command, a
Data-port write or one of the other rules; a CRU write sets the latch; the rest are `Reset` and the units. -/
inductive ExecEffect : Instr → State → State → Prop
  | typeOne {i : Instr} {s s1 s' : State} {v : Bool} {move : State → State} (hi : HeadCommand i)
      (hp : checkRevolution s = .next s1) (hm : HeadMove move) (hr : typeOne v move s1 = .next s') :
      ExecEffect i s s'
  | rule {i : Instr} {s s1 s' : State} (hi : i.format ≠ .cru8) (hp : checkRevolution s = .next s1)
      (he : ControllerEffect s1 s') : ExecEffect i s s'
  | dataWrite {s s1 s' : State} (bus : Byte) (hp : checkRevolution s = .next s1)
      (hr : writeData (invert bus) s1 = .next s') : ExecEffect (.wdat bus) s s'
  | latch {i : Instr} (hi : i.format = .cru8) (s : State) (n : Nat) (v : Bool) : ExecEffect i s (cruWrite n v s)
  | reset (s : State) : ExecEffect .reset s (reply .nothing (resetController s))
  | unit {i : Instr} {s s' : State} (hi : i.format = .unit ∨ i.format = .token8) (he : UnitEffect s s') :
      ExecEffect i s s'

theorem ExecEffect.ofTypeOne {i : Instr} {s s' : State} {v : Bool} {move : State → State} (hi : HeadCommand i)
    (hm : HeadMove move) (h : access (Machine.typeOne v move) s = .next s') : ExecEffect i s s' := by
  obtain ⟨s1, hp, hr⟩ := access_eq_next.1 h
  exact .typeOne hi hp hm hr

theorem ExecEffect.ofRule {i : Instr} {s s' : State} {body : State → Out} (hi : i.format ≠ .cru8)
    (hb : ∀ s1, body s1 = .next s' → ControllerEffect s1 s') (h : access body s = .next s') :
    ExecEffect i s s' := by
  obtain ⟨s1, hp, hr⟩ := access_eq_next.1 h
  exact .rule hi hp (hb s1 hr)

theorem ExecEffect.ofCommandByte {bus : Byte} {s s' : State} (h : execWcmd bus s = .next s') :
    ExecEffect (.wcmd bus) s s' := by
  obtain ⟨s1, hp, hr⟩ := access_eq_next.1 h
  rcases runCommand_effect hr with ⟨hbit, v, move, hm, hr⟩ | he
  · exact .typeOne (.port bus (by simpa [invert] using hbit)) hp hm hr
  · exact .rule nofun hp he

theorem ExecEffect.ofLatch {i : Instr} {s s' : State} {n : Nat} {v : Bool} (hi : i.format = .cru8)
    (h : Host.Outcome.next (cruWrite n v s) = (.next s' : Out)) : ExecEffect i s s' := by
  cases h
  exact .latch hi s n v

/-- An access that answers and does nothing else ends so. -/
theorem replied_effect {f : State → State} (hf : ∀ s, ControllerEffect s (f s)) {s s' : State}
    (h : Host.Outcome.next (f s) = (.next s' : Out)) : ControllerEffect s s' := by
  cases h
  exact hf s

theorem exec_effect {i : Instr} {s s' : State} (h : exec i s = .next s') : ExecEffect i s s' := by
  cases i with
  | restore g v r => exact .ofTypeOne (.restore g v r) .restore h
  | seek g v r => exact .ofTypeOne (.seek g v r) .seek h
  | step u g v r => exact .ofTypeOne (.step u g v r) (.step u) h
  | stepin u g v r => exact .ofTypeOne (.stepIn u g v r) (.stepIn u) h
  | stepout u g v r => exact .ofTypeOne (.stepOut u g v r) (.stepOut u) h
  | rdsec m sb e ca1 a0 => exact .ofRule nofun (fun _ => cmdReadSector_effect) h
  | wrsec m sb e ca1 a0 => exact .ofRule nofun (fun _ => cmdWriteSector_effect) h
  | rdaddr x => exact .ofRule nofun (fun _ => cmdReadAddress_effect) h
  | forceint x => exact .ofRule nofun (fun _ => cmdForceInterrupt_effect) h
  | rdtrk x => exact .ofRule nofun (fun _ => cmdReadTrack_effect) h
  | wrtrk x => exact .ofRule nofun (fun _ => cmdWriteTrack_effect) h
  | rsta => exact .ofRule nofun (fun _ => replied_effect fun _ => .replied _) h
  | rtrk => exact .ofRule nofun (fun _ => replied_effect fun _ => .replied _) h
  | rsec => exact .ofRule nofun (fun _ => replied_effect fun _ => .replied _) h
  | rdat => exact .ofRule nofun (fun _ => readData_effect) h
  | wcmd bus => exact .ofCommandByte h
  | wtrk bus => exact .ofRule nofun (fun _ => replied_effect fun _ => .trackRegister _) h
  | wsec bus => exact .ofRule nofun (fun _ => replied_effect fun _ => .sectorRegister _) h
  | wdat bus =>
    obtain ⟨s1, hp, hr⟩ := access_eq_next.1 h
    exact .dataWrite bus hp hr
  | cru0 v => exact .ofLatch rfl h
  | cru1 v => exact .ofLatch rfl h
  | cru2 v => exact .ofLatch rfl h
  | cru3 v => exact .ofLatch rfl h
  | cru4 v => exact .ofLatch rfl h
  | cru5 v => exact .ofLatch rfl h
  | cru6 v => exact .ofLatch rfl h
  | cru7 v => exact .ofLatch rfl h
  | lit00to7F x => exact .unit (.inr rfl) (onWalk_effect h)
  | lit80toBF x => exact .unit (.inr rfl) (onWalk_effect h)
  | litC0toDF x => exact .unit (.inr rfl) (onWalk_effect h)
  | litE0toEF x => exact .unit (.inr rfl) (onWalk_effect h)
  | litF0toF3 x => exact .unit (.inr rfl) (onWalk_effect h)
  | litF4 => exact .unit (.inr rfl) (onWalk_effect h)
  | tokF5 => exact .unit (.inr rfl) (onWalk_effect h)
  | tokF6 => exact .unit (.inr rfl) (onWalk_effect h)
  | tokCrc => exact .unit (.inr rfl) (onWalk_effect h)
  | tokDam x => exact .unit (.inr rfl) (onWalk_effect h)
  | tokIxam => exact .unit (.inr rfl) (onWalk_effect h)
  | tokFd => exact .unit (.inr rfl) (onWalk_effect h)
  | tokIdam => exact .unit (.inr rfl) (onWalk_effect h)
  | litFF => exact .unit (.inr rfl) (onWalk_effect h)
  | crcInit v => exact .unit (.inl rfl) (reply_leaveCrc_effect h)
  | crcUpdateBit b => exact .unit (.inl rfl) (crcStep_effect (f := fun c => crcUpdateBit c b) h)
  | crcUpdateByte d => exact .unit (.inl rfl) (crcStep_effect (f := fun c => crcUpdateByte c d) h)
  | crcOver preset bytes => exact .unit (.inl rfl) (reply_leaveCrc_effect h)
  | crcAppend preset bytes => exact .unit (.inl rfl) (reply_leaveCrc_effect h)
  | verifyId t sec => exact .unit (.inl rfl) (checkView_effect h)
  | verifyData t sec => exact .unit (.inl rfl) (checkView_effect h)
  | dataModified t sec => exact .unit (.inl rfl) (execDataModified_effect h)
  | newBitStream buf totalBits order skip => exact .unit (.inl rfl) (execNewBitStream_effect h)
  | bitNext handle => exact .unit (.inl rfl) (execBitNext_effect h)
  | bitSeek handle o => exact .unit (.inl rfl) (execBitSeek_effect h)
  | bitPositions handle => exact .unit (.inl rfl) (execBitPositions_effect h)
  | syncTestFm reg filled hunting cell => exact .unit (.inl rfl) (reply_effect h)
  | syncTestMfm reg filled hunting cell => exact .unit (.inl rfl) (reply_effect h)
  | lostClockFm reg cell => exact .unit (.inl rfl) (reply_effect h)
  | lostClockMfm reg cell => exact .unit (.inl rfl) (reply_effect h)
  | decode fmt src => exact .unit (.inl rfl) (execDecode_effect h)
  | encode fmt frags => exact .unit (.inl rfl) (execEncode_effect h)
  | sectorSize t sec => exact .unit (.inl rfl) (execSectorSize_effect h)
  | sectorMatches t sec c g n => exact .unit (.inl rfl) (execSectorMatches_effect h)
  | sectorRead t sec => exact .unit (.inl rfl) (execSectorRead_effect h)
  | sectorValidId t sec => exact .unit (.inl rfl) (checkView_effect h)
  | sectorValidData t sec => exact .unit (.inl rfl) (checkView_effect h)
  | sectorWrite t sec mark buf => exact .unit (.inl rfl) (execSectorWrite_effect h)
  | trackWrite t fmt raw => exact .unit (.inl rfl) (execTrackWrite_effect h)
  | trackRawWrite t fmt clock data => exact .unit (.inl rfl) (execTrackRawWrite_effect h)
  | trackLocateSectors t => exact .unit (.inl rfl) (execTrackLocateSectors_effect h)
  | trackGetSector t c g n => exact .unit (.inl rfl) (execTrackGetSector_effect h)
  | reset =>
    cases h
    exact .reset s

/-! ### The invariant -/

theorem Inv.exec {i : Instr} {s s' : State} (h : Inv s) (hr : exec i s = .next s') : Inv s' := by
  cases exec_effect hr with
  | typeOne _ hp hm hr => exact (h.checkRevolution hp).ofTypeOne hm hr
  | rule _ hp he => exact (h.checkRevolution hp).ofControllerEffect he
  | dataWrite _ hp hr => exact (h.checkRevolution hp).writeData hr
  | latch _ _ n v => exact h.cruWrite n v
  | reset => exact h.resetController.reply .nothing
  | unit _ he => exact he.inv h

theorem Inv.runAccess {a : HostAccess} {s s' : State} (h : Inv s) (hr : runAccess a s = .next s') :
    Inv s' := by
  unfold Machine.runAccess at hr
  split at hr
  · exact h.exec hr
  · cases hr
  · cases hr; exact h
  · cases hr; exact h

theorem Inv.runEvent {e : Event} {s s' : State} (h : Inv s) (hr : runEvent e s = .next s') : Inv s' := by
  cases e with
  | access a => exact h.runAccess hr
  | call i => exact h.exec hr
  | clockIs t => exact h.setClock hr
  | crcValue =>
    obtain ⟨-, rfl⟩ := crcValue_eq_next.1 hr
    exact h.reply _
  | insert k img => exact h.insertImage hr
  | eject k => exact h.ejectImage hr

/-- A step waits, or runs the coming operation (70_reset_and_hazards.md R332). -/
theorem step_eq_next {s s' : State} :
    step s = .next s' ↔ (s.pending = [] ∧ s' = s) ∨
      ∃ e rest, s.pending = e :: rest ∧ runEvent e { s with pending := rest } = .next s' := by
  unfold step fetch
  cases hp : s.pending with
  | nil => simp [eq_comm]
  | cons e rest => simp

/-- Settles O56: a step runs one event; every operation is an update of the units, a controller rule after the
prelude, a latch write or `Reset`, and each of these keeps the invariant. -/
theorem stepKeepsInvariant : Obligations.StepKeepsInvariant := by
  unfold Obligations.StepKeepsInvariant
  intro s s' h hr
  rcases step_eq_next.1 hr with ⟨-, rfl⟩ | ⟨e, rest, -, he⟩
  · exact h
  · have hpending : Inv { s with pending := rest } := { h with }
    exact hpending.runEvent he

/-! ### The head and the disks -/

/-- The head and the step direction stay (10_state.md R16, R19). -/
def sameHead (s s' : State) : Prop := s'.trackSelect = s.trackSelect ∧ s'.stepDir = s.stepDir

/-- The drives and the images stay (10_state.md R20). -/
def sameDisks (s s' : State) : Prop := s'.drives = s.drives ∧ s'.images = s.images

theorem sameHead.trans {s s1 s2 : State} (h1 : sameHead s s1) (h2 : sameHead s1 s2) : sameHead s s2 :=
  ⟨h2.1.trans h1.1, h2.2.trans h1.2⟩

theorem sameDisks.trans {s s1 s2 : State} (h1 : sameDisks s s1) (h2 : sameDisks s1 s2) : sameDisks s s2 :=
  ⟨h2.1.trans h1.1, h2.2.trans h1.2⟩

theorem commandWrite_sameHead (typeI : Bool) (s : State) : sameHead s (commandWrite typeI s) :=
  ⟨commandWrite_trackSelect typeI s, commandWrite_stepDir typeI s⟩

theorem commandWrite_sameDisks (typeI : Bool) (s : State) : sameDisks s (commandWrite typeI s) :=
  ⟨commandWrite_drives typeI s, commandWrite_images typeI s⟩

theorem UnitEffect.sameHead {s s' : State} (h : UnitEffect s s') : sameHead s s' := by
  have hframe := h.frame
  unfold unitFrame at hframe
  rw [hframe]
  exact ⟨rfl, rfl⟩

/-- No rule but a Type I command moves the head, and none but a Data-port write changes a disk. -/
theorem ControllerEffect.frame {s s' : State} (h : ControllerEffect s s') : sameHead s s' ∧ sameDisks s s' := by
  have hcmd : ∀ s', sameHead (commandWrite false s) s' ∧ sameDisks (commandWrite false s) s' →
      sameHead s s' ∧ sameDisks s s' := fun s' hs =>
    ⟨(commandWrite_sameHead false s).trans hs.1, (commandWrite_sameDisks false s).trans hs.2⟩
  cases h with
  | replied => exact ⟨⟨rfl, rfl⟩, rfl, rfl⟩
  | trackRegister => exact ⟨⟨rfl, rfl⟩, rfl, rfl⟩
  | sectorRegister => exact ⟨⟨rfl, rfl⟩, rfl, rfl⟩
  | byteRead => exact ⟨⟨rfl, rfl⟩, rfl, rfl⟩
  | lastByteRead => exact ⟨⟨rfl, rfl⟩, rfl, rfl⟩
  | interrupted => rw [forceInterrupt_eq]; exact ⟨⟨rfl, rfl⟩, rfl, rfl⟩
  | failed => exact hcmd _ ⟨⟨rfl, rfl⟩, rfl, rfl⟩
  | sectorRead => rw [reportCheck_eq]; exact hcmd _ ⟨⟨rfl, rfl⟩, rfl, rfl⟩
  | addressRead => rw [reportCheck_eq]; exact hcmd _ ⟨⟨rfl, rfl⟩, rfl, rfl⟩
  | trackRead => exact hcmd _ ⟨⟨rfl, rfl⟩, rfl, rfl⟩
  | sectorWrite => exact hcmd _ ⟨⟨rfl, rfl⟩, rfl, rfl⟩
  | trackWrite => exact hcmd _ ⟨⟨rfl, rfl⟩, rfl, rfl⟩

/-! ### Only Type I commands and `Reset` move the head -/

theorem checkRevolution_sameHead {s s' : State} (h : checkRevolution s = .next s') : sameHead s s' := by
  rcases checkRevolution_eq_next.1 h with ⟨-, rfl⟩ | ⟨-, -, rfl⟩ | ⟨-, -, s1, hc, rfl⟩
  · exact ⟨rfl, rfl⟩
  · exact ⟨rfl, rfl⟩
  · exact (commit_effect hc).sameHead

theorem writeData_sameHead {v : Byte} {s s' : State} (h : writeData v s = .next s') : sameHead s s' := by
  unfold writeData at h
  simp only at h
  split at h
  · obtain ⟨-, ⟨-, rfl⟩ | ⟨-, s1, hc, rfl⟩⟩ := transferWrite_eq_next.1 h
    · exact ⟨rfl, rfl⟩
    · exact (commit_effect hc).sameHead
  · cases h
    exact ⟨rfl, rfl⟩

theorem exec_sameHead {i : Instr} {s s' : State} (h : exec i s = .next s') (hc : ¬HeadCommand i)
    (hr : i ≠ .reset) : sameHead s s' := by
  cases exec_effect h with
  | typeOne hi => exact absurd hi hc
  | rule _ hp he => exact (checkRevolution_sameHead hp).trans he.frame.1
  | dataWrite _ hp hw => exact (checkRevolution_sameHead hp).trans (writeData_sameHead hw)
  | latch => exact ⟨rfl, rfl⟩
  | reset => exact absurd rfl hr
  | unit _ he => exact he.sameHead

/-- Settles O58: an operation that is neither `Reset` nor a Type I command leaves the head and the direction. -/
theorem headMovesOnlyByTypeI : Obligations.HeadMovesOnlyByTypeI := by
  unfold Obligations.HeadMovesOnlyByTypeI
  intro s s' i h hmoved
  by_cases hr : i = .reset
  · exact .inr (.inr (.inr (.inr (.inr (.inl hr)))))
  by_cases hc : HeadCommand i
  · cases hc with
    | restore g v r => exact .inl ⟨g, v, r, rfl⟩
    | seek g v r => exact .inr (.inl ⟨g, v, r, rfl⟩)
    | step u g v r => exact .inr (.inr (.inl ⟨u, g, v, r, rfl⟩))
    | stepIn u g v r => exact .inr (.inr (.inr (.inl ⟨u, g, v, r, rfl⟩)))
    | stepOut u g v r => exact .inr (.inr (.inr (.inr (.inl ⟨u, g, v, r, rfl⟩))))
    | port bus hb => exact .inr (.inr (.inr (.inr (.inr (.inr ⟨bus, rfl, hb⟩)))))
  · obtain ⟨htrack, hdir⟩ := exec_sameHead h hc hr
    rcases hmoved with hm | hm
    · exact absurd htrack hm
    · exact absurd hdir hm

/-! ### A host access changes a track only by a commit -/

/-- What a commit does to the disks: the captured target is replaced, in the image its drive refers to. -/
def targetWritten (s s' : State) : Prop :=
  ∃ x t t', s.xferTarget = some x ∧ s.track? x.track = some t ∧ s'.drives = s.drives ∧
    s'.images = (s.putTrack x.track t').images

/-- The images a track is put into ask for the drives and the images only. -/
theorem putTrack_images_congr {s s' : State} (h : sameDisks s s') (r : TrackRef) (t : Track) :
    (s'.putTrack r t).images = (s.putTrack r t).images := by
  unfold State.putTrack
  rw [h.1, h.2]
  cases s.drives.get r.drive with
  | none => exact h.2
  | some k => rfl

theorem targetWritten.of_sameDisks {s s0 s1 s' : State} (h : targetWritten s0 s1) (h0 : sameDisks s s0)
    (hx : s0.xferTarget = s.xferTarget) (h1 : sameDisks s1 s') : targetWritten s s' := by
  obtain ⟨x, t, t', htarget, ht, hd, hi⟩ := h
  exact ⟨x, t, t', hx ▸ htarget, (track?_congr h0.1 h0.2 _).symm.trans ht, h1.1.trans (hd.trans h0.1),
    h1.2.trans (hi.trans (putTrack_images_congr h0 _ _))⟩

/-- The frame of a replaced track speaks of the drives and the images only. -/
theorem sameElsewhere_congr {r : TrackRef} {s s1 s2 : State} (h : sameElsewhere r s s1)
    (h12 : sameDisks s1 s2) : sameElsewhere r s s2 := by
  obtain ⟨hdrives, hlen, himages, htracks⟩ := h
  refine ⟨h12.1.trans hdrives, (congrArg List.length h12.2).trans hlen, ?_, fun r' hr =>
    (track?_congr h12.1 h12.2 r').trans (htracks r' hr)⟩
  rw [h12.2]
  exact himages

theorem trackIs_congr {r : TrackRef} {t : Track} {s1 s2 : State} (h : trackIs r t s1)
    (h12 : sameDisks s1 s2) : trackIs r t s2 := fun r' hr =>
  (track?_congr h12.1 h12.2 r').trans (h r' (by unfold sameTrack at hr ⊢; rwa [h12.1] at hr))

/-- The target is written, seen through every drive that refers to its image, and nothing else is. -/
theorem targetWritten.frame {s s' : State} (h : targetWritten s s') :
    ∃ x t', s.xferTarget = some x ∧ s'.images = (s.putTrack x.track t').images ∧
      sameElsewhere x.track s s' ∧ trackIs x.track t' s' := by
  obtain ⟨x, t, t', htarget, ht, hd, hi⟩ := h
  have hsame : sameDisks (s.putTrack x.track t') s' := ⟨hd.trans (putTrack_drives _ _ _).symm, hi⟩
  exact ⟨x, t', htarget, hi, sameElsewhere_congr (State.sameElsewhere_putTrack t' ht) hsame,
    trackIs_congr (State.trackIs_putTrack t' ht) hsame⟩

theorem commit_targetWritten {n : Nat} {s s' : State} (h : commit n s = .next s') : targetWritten s s' := by
  rcases commit_eq_next.1 h with ⟨r, v, -, hx, h⟩ | ⟨r, -, hx, h⟩
  · obtain ⟨t, d, a, ht, -, -, -, rfl⟩ := writeSectorAt_eq_next.1 h
    exact ⟨_, t, a.1, hx, ht, by simp, leaveCrc?_images _ _⟩
  · obtain ⟨⟨t, ht⟩, rfl⟩ := writeTrackAt_eq_next.1 h
    exact ⟨_, t, _, hx, ht, putTrack_drives _ _ _, rfl⟩

theorem typeOne_sameDisks {v : Bool} {move : State → State} {s s' : State} (hm : HeadMove move)
    (h : typeOne v move s = .next s') : sameDisks s s' := by
  have hmove : sameDisks s (move (commandWrite true s)) := by
    rw [hm.frame]
    exact commandWrite_sameDisks true s
  rcases typeOne_eq_next.1 h with ⟨-, rfl⟩ | ⟨-, r, -, rfl⟩
  · exact hmove
  · have hverify : sameDisks (move (commandWrite true s))
        (raiseVerify r (leaveCrc? r.crc (move (commandWrite true s)))) := by
      rw [raiseVerify_eq]
      exact ⟨leaveCrc?_drives _ _, leaveCrc?_images _ _⟩
    exact hmove.trans hverify

/-- The prelude commits a Write Track that has timed out, and changes no disk otherwise; where it does anything,
no transfer is left. -/
theorem checkRevolution_disks {s s' : State} (h : checkRevolution s = .next s') :
    s' = s ∨ (s'.cmdInProgress = .none ∧ (sameDisks s s' ∨
      s.cmdInProgress = .writeTrack ∧ s.cfg.clocksPerRev ≤ s.now - s.startClock ∧ targetWritten s s')) := by
  rcases checkRevolution_eq_next.1 h with ⟨-, rfl⟩ | ⟨-, -, rfl⟩ | ⟨htime, hcmd, s1, hc, rfl⟩
  · exact .inl rfl
  · exact .inr ⟨rfl, .inl ⟨rfl, rfl⟩⟩
  · simp only [State.timedOut, Bool.and_eq_true, decide_eq_true_eq] at htime
    exact .inr ⟨rfl, .inr ⟨hcmd, htime.2,
      (commit_targetWritten hc).of_sameDisks ⟨rfl, rfl⟩ rfl ⟨rfl, rfl⟩⟩⟩

/-- A Data-port write commits with its last byte, and changes no disk otherwise. -/
theorem writeData_disks {v : Byte} {s s' : State} (h : writeData v s = .next s') :
    sameDisks s s' ∨ (s.bytesLeft ≤ 1 ∧ s.cmdInProgress.isWrite = true ∧ targetWritten s s') := by
  unfold writeData at h
  simp only at h
  split at h
  · rename_i hw
    obtain ⟨-, ⟨-, rfl⟩ | ⟨hz, s1, hc, rfl⟩⟩ := transferWrite_eq_next.1 h
    · exact .inl ⟨rfl, rfl⟩
    · exact .inr ⟨Nat.le_of_sub_eq_zero hz, hw,
        (commit_targetWritten hc).of_sameDisks ⟨rfl, rfl⟩ rfl ⟨rfl, rfl⟩⟩
  · cases h
    exact .inl ⟨rfl, rfl⟩

/-- Why a host access writes its target: the last byte of a write transfer, or a Write Track out of time. -/
def commitCause (i : Instr) (s : State) : Prop :=
  (∃ bus, i = .wdat bus ∧ s.bytesLeft ≤ 1 ∧ s.cmdInProgress ∈ [Transfer.writeSector, .writeTrack]) ∨
    (i.format ≠ .cru8 ∧ s.cmdInProgress = .writeTrack ∧ s.cfg.clocksPerRev ≤ s.now - s.startClock)

/-- A rule that changes no disk leaves what the prelude did. -/
theorem disks_of_prelude {i : Instr} {s s1 s' : State} (hi : i.format ≠ .cru8)
    (hp : checkRevolution s = .next s1) (hd : sameDisks s1 s') :
    sameDisks s s' ∨ targetWritten s s' ∧ commitCause i s := by
  rcases checkRevolution_disks hp with rfl | ⟨-, hsame | ⟨hcmd, htime, hw⟩⟩
  · exact .inl hd
  · exact .inl (hsame.trans hd)
  · exact .inr ⟨hw.of_sameDisks ⟨rfl, rfl⟩ rfl hd, .inr ⟨hi, hcmd, htime⟩⟩

theorem exec_disks {i : Instr} {s s' : State} (h : exec i s = .next s')
    (hf : i.format = .cmd8 ∨ i.format = .port ∨ i.format = .cru8) :
    sameDisks s s' ∨ targetWritten s s' ∧ commitCause i s := by
  cases exec_effect h with
  | typeOne hi hp hm hr => exact disks_of_prelude hi.format_ne_cru8 hp (typeOne_sameDisks hm hr)
  | rule hi hp he => exact disks_of_prelude hi hp he.frame.2
  | dataWrite bus hp hr =>
    rcases writeData_disks hr with hd | ⟨hleft, hwrite, hw⟩
    · exact disks_of_prelude nofun hp hd
    · rcases checkRevolution_disks hp with hsame | ⟨hnone, -⟩
      · rw [hsame] at hleft hwrite hw
        refine .inr ⟨hw, .inl ⟨bus, rfl, hleft, ?_⟩⟩
        cases hc : s.cmdInProgress <;> simp [hc, Transfer.isWrite] at hwrite ⊢
      · rw [hnone] at hwrite
        cases hwrite
  | latch => exact .inl ⟨rfl, rfl⟩
  | reset => rcases hf with hf | hf | hf <;> cases hf
  | unit hi =>
    rcases hi with hi | hi <;> rw [hi] at hf <;> rcases hf with hf | hf | hf <;> cases hf

/-- Settles O59: the rules of the controller change no disk but through a commit, and a commit puts one track. -/
theorem tracksChangeOnlyByCommit : Obligations.TracksChangeOnlyByCommit := by
  unfold Obligations.TracksChangeOnlyByCommit
  intro s s' i h hf hchanged
  rcases exec_disks h hf with ⟨hdrives, himages⟩ | ⟨hw, hcause⟩
  · rcases hchanged with hc | hc
    · exact absurd himages hc
    · exact absurd hdrives hc
  · obtain ⟨x, t', htarget, himages, helse, his⟩ := hw.frame
    exact ⟨x, t', htarget, himages, helse, his, hcause⟩

/-! ### The CRC register before `CrcInit` -/

theorem crcValue_refused {s : State} (h : s.crcReady = false) : crcValue s = .refused .crcNotInitialised := by
  simp [crcValue, h]

theorem step_of_pending {s : State} {e : Event} {rest : List Event} (h : s.pending = e :: rest) :
    step s = runEvent e { s with pending := rest } := by
  simp [step, fetch, h]

/-- Asking for a register that is not initialised is refused. -/
theorem step_crcValue_refused {s : State} {rest : List Event} (h : s.crcReady = false)
    (hp : s.pending = .crcValue :: rest) : step s = .refused .crcNotInitialised := by
  rw [step_of_pending hp]
  exact crcValue_refused h

/-- A step of the register initialises nothing. -/
theorem crcStep_refused {s : State} (f : Word16 → Word16) (h : s.crcReady = false) :
    ∃ s', crcStep f s = .next s' ∧ s'.crcReady = false ∧
      step (place .crcValue s') = .refused .crcNotInitialised :=
  ⟨_, rfl, h, step_crcValue_refused h rfl⟩

/-- Settles O9: reading asks for the flag that `CrcInit` sets and no step of the register touches. -/
theorem crcBeforeInitRefused : Obligations.CrcBeforeInitRefused := by
  unfold Obligations.CrcBeforeInitRefused
  intro s h
  refine ⟨fun rest hp => step_crcValue_refused h hp, fun b => ?_, fun d => ?_⟩
  · exact crcStep_refused (fun c => crcUpdateBit c b) h
  · exact crcStep_refused (fun c => crcUpdateByte c d) h

/-! ### Reset values -/

/-- The two variants of the default machine have one layout. -/
theorem resetParams_layout : Config.resetParams.layout = Config.defaultLayout := ite_self _

theorem resetStepDir_outward {p : Params} (h : p.resetStepIn = false) : resetStepDir p = .outward := by
  simp [resetStepDir, h]

/-- The masks of the default layout (30_encoding.md R70 to R72). -/
theorem reset_mask (b : StatusBit) :
    State.reset.cfg.mask b = BitVec.twoPow 8 (Config.defaultLayout.position b).val :=
  congrArg (fun l => BitVec.twoPow 8 (StatusLayout.position l b).val) resetParams_layout

/-- Settles O54: the reset state is written out in its definition; only the masks go through the layout, which is
the default one in both variants. -/
theorem resetState : Obligations.ResetState := by
  unfold Obligations.ResetState
  refine ⟨fun p => ?_, resetStepDir_outward (p := Config.resetParams) rfl, fun b m hb => ?_, rfl, rfl, fun _ _ _ _ => rfl, rfl, rfl,
    fun s => ⟨_, rfl, rfl, rfl⟩⟩
  · exact ⟨rfl, rfl, rfl, rfl, rfl, rfl, rfl, rfl, rfl, rfl, rfl, rfl, rfl, rfl, rfl, rfl, rfl, rfl,
      resetStepDir_outward⟩
  · rw [reset_mask]
    exact (by decide : ∀ x : StatusBit × Byte, x ∈ _ →
      BitVec.twoPow 8 (Config.defaultLayout.position x.1).val = x.2) (b, m) hb

end Sys2Proof.Machine
end

section
/-! SUPPORT and proof of what a write of the Track, Sector or Data port does outside a write transfer
(47_controller_interface.md R227 to R229, 20_memory.md R46). -/

namespace Sys2Proof.Machine

/-! ### Port writes -/

/-- The data bus carries the complement of every register value (20_memory.md R46). -/
theorem invert_eq_not (b : Byte) : invert b = ~~~b := rfl

/-- The transfers a Data-port write takes part in are the two write transfers. -/
theorem Transfer.isWrite_eq_false_iff {k : Transfer} :
    k.isWrite = false ↔ k ∉ [Transfer.writeSector, .writeTrack] := by
  cases k <;> simp [Transfer.isWrite]

/-- Outside a write transfer the Data port is a register (R229). -/
theorem writeData_of_not_isWrite {s : State} (h : s.cmdInProgress.isWrite = false) (v : Byte) :
    writeData v s = .next (reply .nothing { s with dataRegister := v }) := by
  simp [writeData, h]

theorem exec_wtrk_of_not_timedOut {s : State} (h : s.timedOut = false) (bus : Byte) :
    exec (.wtrk bus) s = .next (reply .nothing { s with trackRegister := invert bus }) :=
  access_of_not_timedOut h _

theorem exec_wsec_of_not_timedOut {s : State} (h : s.timedOut = false) (bus : Byte) :
    exec (.wsec bus) s = .next (reply .nothing { s with sectorRegister := invert bus }) :=
  access_of_not_timedOut h _

theorem exec_wdat_of_not_timedOut {s : State} (h : s.timedOut = false) (bus : Byte) :
    exec (.wdat bus) s = writeData (invert bus) s :=
  access_of_not_timedOut h _

/-- Settles O39: with no time-out pending the prelude leaves the state alone, and each port's own rule writes one
register; the Data port's does so because no write transfer is in progress. -/
theorem portWrites : Obligations.PortWrites := by
  unfold Obligations.PortWrites
  intro s bus ht
  refine ⟨?track, ?sector, fun hc => ?data⟩
  case track => rw [exec_wtrk_of_not_timedOut ht, invert_eq_not, reply]
  case sector => rw [exec_wsec_of_not_timedOut ht, invert_eq_not, reply]
  case data =>
    have hw : s.cmdInProgress.isWrite = false := Transfer.isWrite_eq_false_iff.2 hc
    rw [exec_wdat_of_not_timedOut ht, writeData_of_not_isWrite hw, invert_eq_not, reply]

end Sys2Proof.Machine
end

section
/-! SUPPORT and proof of what the encodings say (30_encoding.md R61 to R69, R78): the command map's rows, the token
rows and the port addresses, each taken through the decoder and the encoder in both directions. -/

namespace Sys2Proof

/-! ### High bits of a word -/

/-- Testing a word against a mask of its high bits compares the high bits. -/
theorem and_highMask_eq_iff {n m : Nat} (b : BitVec (n + m)) (p : BitVec n) :
    b &&& (BitVec.allOnes n ++ 0#m) = p ++ 0#m ↔ b.extractLsb' m n = p := by
  have hand : b &&& (BitVec.allOnes n ++ 0#m) = b.extractLsb' m n ++ 0#m := by
    conv_lhs => rw [← BitVec.extractLsb'_append_extractLsb' (x := b)]
    rw [BitVec.and_append, BitVec.and_allOnes, BitVec.and_zero]
  rw [hand]
  refine ⟨fun h => ?_, congrArg (· ++ 0#m)⟩
  simpa only [BitVec.extractLsb'_append_eq_left] using congrArg (BitVec.extractLsb' m n) h

/-- A word whose high bits are known is these bits over its low bits. -/
theorem append_extractLsb'_of_high {n m : Nat} {b : BitVec (n + m)} {p : BitVec n}
    (h : b.extractLsb' m n = p) : p ++ b.extractLsb' 0 m = b := by
  rw [← h, BitVec.extractLsb'_append_extractLsb']

/-- The high bits of a word, as a number. -/
theorem toNat_high {n m : Nat} (b : BitVec (n + m)) : (b.extractLsb' m n).toNat = b.toNat / 2 ^ m := by
  have hlt : b.toNat / 2 ^ m < 2 ^ n := by
    rw [Nat.div_lt_iff_lt_mul (Nat.two_pow_pos m), ← Nat.pow_add]
    exact b.isLt
  rw [BitVec.extractLsb'_toNat, Nat.shiftRight_eq_div_pow, Nat.mod_eq_of_lt hlt]

/-- Testing a word against a mask of its high bits puts its number in the range of a prefix. -/
theorem and_highMask_eq_iff_toNat {n m : Nat} (b : BitVec (n + m)) (p : BitVec n) :
    b &&& (BitVec.allOnes n ++ 0#m) = p ++ 0#m ↔ b.toNat / 2 ^ m = p.toNat := by
  rw [and_highMask_eq_iff, ← BitVec.toNat_inj, toNat_high]

/-- A single bit of a word is a field of width one. -/
theorem ofBool_getElem {w i : Nat} (b : BitVec w) (h : i < w) : BitVec.ofBool b[i] = b.extractLsb' i 1 := by
  apply BitVec.eq_of_getLsbD_eq
  intro j hj
  obtain rfl : j = 0 := by omega
  simp [h]

/-! ### Command bytes -/

/-- The mask of a row of the command map covers bits of the top nibble alone (30_encoding.md R62). -/
theorem commandRow_mask (k : Cmd) : (commandRow k).2 = (commandRow k).2.extractLsb' 4 4 ++ 0#4 := by
  cases k <;> rfl

/-- The command a byte selects depends on its top nibble alone. -/
theorem decodeOp_congr {c d : Byte} (h : c.extractLsb' 4 4 = d.extractLsb' 4 4) : decodeOp c = decodeOp d := by
  unfold decodeOp
  rw [h]

/-- A byte has the match of a row under the row's mask exactly when it decodes to the row's command (R62): both
look at the top nibble, and there are sixteen of these. -/
theorem commandRow_iff (c : Byte) (k : Cmd) :
    c &&& (commandRow k).2 = (commandRow k).1 ↔ decodeOp c = k := by
  have hop : decodeOp c = decodeOp (c.extractLsb' 4 4 ++ 0#4) :=
    decodeOp_congr BitVec.extractLsb'_append_eq_left.symm
  have hmask : c &&& (commandRow k).2 = (c.extractLsb' 4 4 ++ 0#4) &&& (commandRow k).2 := by
    conv_lhs => rw [← BitVec.extractLsb'_append_extractLsb' (w := 4) (len := 4) (x := c)]
    rw [commandRow_mask, BitVec.and_append, BitVec.and_append, BitVec.and_zero, BitVec.and_zero]
  rw [hop, hmask]
  generalize c.extractLsb' 4 4 = q
  revert q
  cases k <;> decide

/-- The fields of a Type I command byte, put side by side again, are the byte (R63). -/
theorem encodeTypeI_fields {cb : Byte} {op : BitVec 3} (h : cb.extractLsb' 5 3 = op) :
    encodeTypeI op cb[4] cb[3] cb[2] (cb.extractLsb' 0 2) = cb := by
  simp only [encodeTypeI, ← h, ofBool_getElem, BitVec.extractLsb'_append_extractLsb'_eq_extractLsb']
  exact BitVec.extractLsb'_eq_self

/-- The fields of a Type II command byte, put side by side again, are the byte (R64). -/
theorem encodeTypeII_fields {cb : Byte} {op : BitVec 3} (h : cb.extractLsb' 5 3 = op) :
    encodeTypeII op cb[4] cb[3] cb[2] cb[1] cb[0] = cb := by
  simp only [encodeTypeII, ← h, ofBool_getElem, BitVec.extractLsb'_append_extractLsb'_eq_extractLsb']
  exact BitVec.extractLsb'_eq_self

/-- The top nibble of a command byte is its three bits of opcode and bit 4. -/
theorem nibble_eq (cb : Byte) : cb.extractLsb' 4 4 = cb.extractLsb' 5 3 ++ BitVec.ofBool cb[4] := by
  rw [ofBool_getElem]
  exact (BitVec.extractLsb'_append_extractLsb'_eq_extractLsb' (x := cb) (start₁ := 4) (len₁ := 1) rfl).symm

/-- Restore and Seek are told apart by bit 4 (R62), which is no flag of theirs. -/
theorem encodeTypeI_fields_of_nibble {cb : Byte} {op : BitVec 3} {b4 : Bool}
    (h : cb.extractLsb' 4 4 = op ++ BitVec.ofBool b4) :
    encodeTypeI op b4 cb[3] cb[2] (cb.extractLsb' 0 2) = cb := by
  rw [nibble_eq] at h
  have hop : cb.extractLsb' 5 3 = op := by
    simpa only [BitVec.extractLsb'_append_eq_left] using congrArg (BitVec.extractLsb' 1 3) h
  have hb4 : BitVec.ofBool cb[4] = BitVec.ofBool b4 := by
    simpa only [BitVec.extractLsb'_append_eq_right] using congrArg (BitVec.extractLsb' 0 1) h
  rw [← BitVec.ofBool_eq_iff_eq.mp hb4]
  exact encodeTypeI_fields hop

/-- What the mask 0xE0 of a row says of a command byte. -/
theorem opcode_of_row {cb : Byte} {op : BitVec 3} (h : cb &&& 0xE0#8 = op ++ 0#5) : cb.extractLsb' 5 3 = op :=
  (and_highMask_eq_iff (n := 3) (m := 5) cb op).1 h

/-- What the mask 0xF0 of a row says of a command byte. -/
theorem nibble_of_row {cb : Byte} {q : BitVec 4} (h : cb &&& 0xF0#8 = q ++ 0#4) : cb.extractLsb' 4 4 = q :=
  (and_highMask_eq_iff (n := 4) (m := 4) cb q).1 h

/-- Encoding a decoded command byte gives the byte back: its high bits are those of the row it matches, and the
row's operands are its low bits. -/
theorem encode_decodeCommand (m : PortMap) (cb : Byte) : encode m (decodeCommand cb) = some (.command cb) := by
  have hrow : cb &&& (commandRow (decodeOp cb)).2 = (commandRow (decodeOp cb)).1 := (commandRow_iff cb _).2 rfl
  unfold decodeCommand
  generalize decodeOp cb = k at hrow ⊢
  cases k <;> refine congrArg (some ∘ HostAccess.command) ?_
  case restore => exact encodeTypeI_fields_of_nibble (nibble_of_row hrow)
  case seek => exact encodeTypeI_fields_of_nibble (nibble_of_row hrow)
  case step => exact encodeTypeI_fields (opcode_of_row hrow)
  case stepIn => exact encodeTypeI_fields (opcode_of_row hrow)
  case stepOut => exact encodeTypeI_fields (opcode_of_row hrow)
  case readSector => exact encodeTypeII_fields (opcode_of_row hrow)
  case writeSector => exact encodeTypeII_fields (opcode_of_row hrow)
  case readAddress => exact append_extractLsb'_of_high (nibble_of_row hrow)
  case forceInterrupt => exact append_extractLsb'_of_high (nibble_of_row hrow)
  case readTrack => exact append_extractLsb'_of_high (nibble_of_row hrow)
  case writeTrack => exact append_extractLsb'_of_high (nibble_of_row hrow)

/-- Each bit of an encoded Type I command, by its place (R63). -/
theorem getLsbD_encodeTypeI (op : BitVec 3) (b4 h v : Bool) (r : BitVec 2) (i : Nat) :
    (encodeTypeI op b4 h v r).getLsbD i =
      if i < 2 then r.getLsbD i else if i = 2 then v else if i = 3 then h else if i = 4 then b4
      else op.getLsbD (i - 5) := by
  have happend : (encodeTypeI op b4 h v r).getLsbD i =
      (op ++ BitVec.ofBool b4 ++ BitVec.ofBool h ++ BitVec.ofBool v ++ r).getLsbD i := rfl
  rw [happend]
  simp only [BitVec.getLsbD_append, BitVec.getLsbD_ofBool]
  grind

section EncodedFields

variable (op : BitVec 3) (b4 h v : Bool) (r : BitVec 2)

@[simp] theorem encodeTypeI_bit4 : (encodeTypeI op b4 h v r)[4] = b4 := getLsbD_encodeTypeI op b4 h v r 4

@[simp] theorem encodeTypeI_bit3 : (encodeTypeI op b4 h v r)[3] = h := getLsbD_encodeTypeI op b4 h v r 3

@[simp] theorem encodeTypeI_bit2 : (encodeTypeI op b4 h v r)[2] = v := getLsbD_encodeTypeI op b4 h v r 2

@[simp] theorem encodeTypeI_bit1 : (encodeTypeI op b4 h v r)[1] = r[1] := getLsbD_encodeTypeI op b4 h v r 1

@[simp] theorem encodeTypeI_bit0 : (encodeTypeI op b4 h v r)[0] = r[0] := getLsbD_encodeTypeI op b4 h v r 0

@[simp] theorem encodeTypeI_rate : (encodeTypeI op b4 h v r).extractLsb' 0 2 = r :=
  BitVec.extractLsb'_append_eq_right

/-- The top nibble of an encoded command is its opcode bits and bit 4. -/
theorem encodeTypeI_nibble : (encodeTypeI op b4 h v r).extractLsb' 4 4 = op ++ BitVec.ofBool b4 := by
  apply BitVec.eq_of_getLsbD_eq
  intro i hi
  simp only [BitVec.getLsbD_extractLsb', getLsbD_encodeTypeI, BitVec.getLsbD_append, BitVec.getLsbD_ofBool]
  grind

/-- The command of an encoded byte follows from its opcode bits and bit 4. -/
theorem decodeOp_encodeTypeI : decodeOp (encodeTypeI op b4 h v r) = decodeOp (op ++ BitVec.ofBool b4 ++ 0#4) :=
  decodeOp_congr ((encodeTypeI_nibble op b4 h v r).trans BitVec.extractLsb'_append_eq_left.symm)

/-- Where bit 4 is a flag, the opcode bits alone select the command (R62). -/
theorem decodeOp_encodeTypeI_of_opcode {op : BitVec 3} {k : Cmd}
    (hk : ∀ b : Bool, decodeOp (op ++ BitVec.ofBool b ++ 0#4) = k) : decodeOp (encodeTypeI op b4 h v r) = k :=
  (decodeOp_encodeTypeI op b4 h v r).trans (hk b4)

end EncodedFields

/-- A Type II byte has the layout of a Type I byte, with two flags for the rate (R63, R64). -/
theorem encodeTypeII_eq (op : BitVec 3) (m sb e ca1 a0 : Bool) :
    encodeTypeII op m sb e ca1 a0 = encodeTypeI op m sb e (BitVec.ofBool ca1 ++ BitVec.ofBool a0) :=
  BitVec.append_assoc

@[simp] theorem getElem_one_ofBool_append (a b : Bool) :
    (BitVec.ofBool a ++ BitVec.ofBool b : BitVec 2)[1] = a := by
  revert a b
  decide

@[simp] theorem getElem_zero_ofBool_append (a b : Bool) :
    (BitVec.ofBool a ++ BitVec.ofBool b : BitVec 2)[0] = b := by
  revert a b
  decide

/-- The command of a byte with four operand bits follows from its top nibble. -/
theorem decodeOp_append (q x : BitVec 4) : decodeOp (q ++ x) = decodeOp (q ++ 0#4) :=
  decodeOp_congr (BitVec.extractLsb'_append_eq_left.trans BitVec.extractLsb'_append_eq_left.symm)

/-- The operand of a byte with four operand bits is its low nibble. -/
theorem extractLsb'_append_nibble (q x : BitVec 4) : (q ++ x : Byte).extractLsb' 0 4 = x :=
  BitVec.extractLsb'_append_eq_right

/-- An operation of format CMD8 is encoded as a command byte that decodes to it: the byte's high bits select its
row, and its fields are the operands. -/
theorem decodeCommand_encode (m : PortMap) {i : Instr} (hf : i.format = .cmd8) :
    ∃ cb, encode m i = some (.command cb) ∧ decodeCommand cb = i := by
  cases i with
  | restore h v r =>
    have hop : decodeOp (encodeTypeI 0b000#3 false h v r) = .restore := decodeOp_encodeTypeI ..
    exact ⟨_, rfl, by simp [decodeCommand, hop]⟩
  | seek h v r =>
    have hop : decodeOp (encodeTypeI 0b000#3 true h v r) = .seek := decodeOp_encodeTypeI ..
    exact ⟨_, rfl, by simp [decodeCommand, hop]⟩
  | step u h v r =>
    have hop := decodeOp_encodeTypeI_of_opcode u h v r (op := 0b001#3) (k := .step) (by decide)
    exact ⟨_, rfl, by simp [decodeCommand, hop]⟩
  | stepin u h v r =>
    have hop := decodeOp_encodeTypeI_of_opcode u h v r (op := 0b010#3) (k := .stepIn) (by decide)
    exact ⟨_, rfl, by simp [decodeCommand, hop]⟩
  | stepout u h v r =>
    have hop := decodeOp_encodeTypeI_of_opcode u h v r (op := 0b011#3) (k := .stepOut) (by decide)
    exact ⟨_, rfl, by simp [decodeCommand, hop]⟩
  | rdsec m sb e ca1 a0 =>
    have hop := decodeOp_encodeTypeI_of_opcode m sb e (BitVec.ofBool ca1 ++ BitVec.ofBool a0)
      (op := 0b100#3) (k := .readSector) (by decide)
    exact ⟨_, rfl, by simp [decodeCommand, encodeTypeII_eq, hop]⟩
  | wrsec m sb e ca1 a0 =>
    have hop := decodeOp_encodeTypeI_of_opcode m sb e (BitVec.ofBool ca1 ++ BitVec.ofBool a0)
      (op := 0b101#3) (k := .writeSector) (by decide)
    exact ⟨_, rfl, by simp [decodeCommand, encodeTypeII_eq, hop]⟩
  | rdaddr x =>
    have hop : decodeOp (0xC#4 ++ x) = .readAddress := decodeOp_append ..
    exact ⟨_, rfl, by simp [decodeCommand, hop, extractLsb'_append_nibble]⟩
  | forceint x =>
    have hop : decodeOp (0xD#4 ++ x) = .forceInterrupt := decodeOp_append ..
    exact ⟨_, rfl, by simp [decodeCommand, hop, extractLsb'_append_nibble]⟩
  | rdtrk x =>
    have hop : decodeOp (0xE#4 ++ x) = .readTrack := decodeOp_append ..
    exact ⟨_, rfl, by simp [decodeCommand, hop, extractLsb'_append_nibble]⟩
  | wrtrk x =>
    have hop : decodeOp (0xF#4 ++ x) = .writeTrack := decodeOp_append ..
    exact ⟨_, rfl, by simp [decodeCommand, hop, extractLsb'_append_nibble]⟩
  | _ => cases hf

/-! ### Tokens -/

section TokenRows

variable {b : Byte}

/-! Each masked row of the token table (30_encoding.md R78) as a range of the byte. -/

theorem row_lit00to7F : b &&& 0x80#8 = 0x00#8 ↔ b.toNat / 128 = 0 :=
  and_highMask_eq_iff_toNat (n := 1) (m := 7) b 0b0#1

theorem row_lit80toBF : b &&& 0xC0#8 = 0x80#8 ↔ b.toNat / 64 = 2 :=
  and_highMask_eq_iff_toNat (n := 2) (m := 6) b 0b10#2

theorem row_litC0toDF : b &&& 0xE0#8 = 0xC0#8 ↔ b.toNat / 32 = 6 :=
  and_highMask_eq_iff_toNat (n := 3) (m := 5) b 0b110#3

theorem row_litE0toEF : b &&& 0xF0#8 = 0xE0#8 ↔ b.toNat / 16 = 14 :=
  and_highMask_eq_iff_toNat (n := 4) (m := 4) b 0b1110#4

theorem row_litF0toF3 : b &&& 0xFC#8 = 0xF0#8 ↔ b.toNat / 4 = 60 :=
  and_highMask_eq_iff_toNat (n := 6) (m := 2) b 0b111100#6

theorem row_tokDam : b &&& 0xFC#8 = 0xF8#8 ↔ b.toNat / 4 = 62 :=
  and_highMask_eq_iff_toNat (n := 6) (m := 2) b 0b111110#6

/-! The ranges of the rows are disjoint, so that each selects its row wherever it stands in the decoder. -/

theorem decodeToken_lit00to7F (h : b.toNat / 128 = 0) : decodeToken b = .lit00to7F (b.extractLsb' 0 7) := by
  rw [decodeToken, if_pos (row_lit00to7F.2 h)]

theorem decodeToken_lit80toBF (h : b.toNat / 64 = 2) : decodeToken b = .lit80toBF (b.extractLsb' 0 6) := by
  simp only [decodeToken, row_lit00to7F, row_lit80toBF]
  grind

theorem decodeToken_litC0toDF (h : b.toNat / 32 = 6) : decodeToken b = .litC0toDF (b.extractLsb' 0 5) := by
  simp only [decodeToken, row_lit00to7F, row_lit80toBF, row_litC0toDF]
  grind

theorem decodeToken_litE0toEF (h : b.toNat / 16 = 14) : decodeToken b = .litE0toEF (b.extractLsb' 0 4) := by
  simp only [decodeToken, row_lit00to7F, row_lit80toBF, row_litC0toDF, row_litE0toEF]
  grind

theorem decodeToken_litF0toF3 (h : b.toNat / 4 = 60) : decodeToken b = .litF0toF3 (b.extractLsb' 0 2) := by
  simp only [decodeToken, row_lit00to7F, row_lit80toBF, row_litC0toDF, row_litE0toEF, row_litF0toF3]
  grind

theorem decodeToken_tokDam (h : b.toNat / 4 = 62) : decodeToken b = .tokDam (b.extractLsb' 0 2) := by
  simp only [decodeToken, row_lit00to7F, row_lit80toBF, row_litC0toDF, row_litE0toEF, row_litF0toF3, row_tokDam]
  grind

end TokenRows

/-- Every byte is in the range of a masked row or is one of the eight single bytes. -/
theorem tokenRows_cover (b : Byte) :
    b.toNat / 128 = 0 ∨ b.toNat / 64 = 2 ∨ b.toNat / 32 = 6 ∨ b.toNat / 16 = 14 ∨ b.toNat / 4 = 60 ∨
      b.toNat / 4 = 62 ∨
      b ∈ [0xF4#8, 0xF5#8, 0xF6#8, 0xF7#8, 0xFC#8, 0xFD#8, 0xFE#8, 0xFF#8] := by
  have hlt : b.toNat < 256 := b.isLt
  simp only [List.mem_cons, List.not_mem_nil, or_false, ← BitVec.toNat_inj, BitVec.toNat_ofNat]
  omega


/-- The prefix of a word tells the range of its number. -/
theorem toNat_append_div {n m : Nat} (p : BitVec n) (x : BitVec m) : (p ++ x).toNat / 2 ^ m = p.toNat := by
  rw [← toNat_high, BitVec.extractLsb'_append_eq_left]

/-- A word in the range of a prefix is that prefix over its low bits. -/
theorem append_extractLsb'_of_range {n m : Nat} {b : BitVec (n + m)} {p : BitVec n}
    (h : b.toNat / 2 ^ m = p.toNat) : p ++ b.extractLsb' 0 m = b :=
  append_extractLsb'_of_high (BitVec.toNat_inj.1 ((toNat_high b).trans h))

/-- Encoding a decoded token gives the byte back. -/
theorem encode_decodeToken (m : PortMap) (b : Byte) : encode m (decodeToken b) = some (.token b) := by
  obtain h | h | h | h | h | h | h := tokenRows_cover b
  · rw [decodeToken_lit00to7F h]
    exact congrArg (some ∘ HostAccess.token) (append_extractLsb'_of_range h)
  · rw [decodeToken_lit80toBF h]
    exact congrArg (some ∘ HostAccess.token) (append_extractLsb'_of_range h)
  · rw [decodeToken_litC0toDF h]
    exact congrArg (some ∘ HostAccess.token) (append_extractLsb'_of_range h)
  · rw [decodeToken_litE0toEF h]
    exact congrArg (some ∘ HostAccess.token) (append_extractLsb'_of_range h)
  · rw [decodeToken_litF0toF3 h]
    exact congrArg (some ∘ HostAccess.token) (append_extractLsb'_of_range h)
  · rw [decodeToken_tokDam h]
    exact congrArg (some ∘ HostAccess.token) (append_extractLsb'_of_range h)
  · simp only [List.mem_cons, List.not_mem_nil, or_false] at h
    obtain rfl | rfl | rfl | rfl | rfl | rfl | rfl | rfl := h
    all_goals rfl

/-- An operation of format TOKEN8 is encoded as a token that decodes to it: the prefix puts the byte in the range
of the row, and the operand is the rest. -/
theorem decodeToken_encode (m : PortMap) {i : Instr} (hf : i.format = .token8) :
    ∃ b, encode m i = some (.token b) ∧ decodeToken b = i := by
  cases i with
  | lit00to7F x =>
    exact ⟨_, rfl, (decodeToken_lit00to7F (toNat_append_div 0b0#1 x)).trans
      (congrArg _ BitVec.extractLsb'_append_eq_right)⟩
  | lit80toBF x =>
    exact ⟨_, rfl, (decodeToken_lit80toBF (toNat_append_div 0b10#2 x)).trans
      (congrArg _ BitVec.extractLsb'_append_eq_right)⟩
  | litC0toDF x =>
    exact ⟨_, rfl, (decodeToken_litC0toDF (toNat_append_div 0b110#3 x)).trans
      (congrArg _ BitVec.extractLsb'_append_eq_right)⟩
  | litE0toEF x =>
    exact ⟨_, rfl, (decodeToken_litE0toEF (toNat_append_div 0b1110#4 x)).trans
      (congrArg _ BitVec.extractLsb'_append_eq_right)⟩
  | litF0toF3 x =>
    exact ⟨_, rfl, (decodeToken_litF0toF3 (toNat_append_div 0b111100#6 x)).trans
      (congrArg _ BitVec.extractLsb'_append_eq_right)⟩
  | tokDam x =>
    exact ⟨_, rfl, (decodeToken_tokDam (toNat_append_div 0b111110#6 x)).trans
      (congrArg _ BitVec.extractLsb'_append_eq_right)⟩
  | litF4 => exact ⟨_, rfl, rfl⟩
  | tokF5 => exact ⟨_, rfl, rfl⟩
  | tokF6 => exact ⟨_, rfl, rfl⟩
  | tokCrc => exact ⟨_, rfl, rfl⟩
  | tokIxam => exact ⟨_, rfl, rfl⟩
  | tokFd => exact ⟨_, rfl, rfl⟩
  | tokIdam => exact ⟨_, rfl, rfl⟩
  | litFF => exact ⟨_, rfl, rfl⟩
  | _ => cases hf

/-! ### Ports and CRU bits -/

/-- The eight addresses that can be told apart, as propositions. -/
theorem PortMap.wf_iff {m : PortMap} :
    m.wf = true ↔ [portKey m.statusR, portKey m.trackR, portKey m.sectorR, portKey m.dataR].Nodup ∧
      [portKey m.commandW, portKey m.trackW, portKey m.sectorW, portKey m.dataW].Nodup ∧
      m.cruBase.toNat + 8 ≤ 65536 := by
  simp only [PortMap.wf, Bool.and_eq_true, decide_eq_true_eq, and_assoc]

theorem portHit_iff {port addr : Word16} : portHit port addr = true ↔ portKey addr = portKey port :=
  beq_iff_eq

/-- An operation of format PORT is encoded as an access to its port, which no port tried before it answers. -/
theorem decode_encode_port {m : PortMap} (hm : m.wf = true) {i : Instr} (hf : i.format = .port) :
    ∃ a, encode m i = some a ∧ a.format = .port ∧ decode m a = .ok i := by
  obtain ⟨hr, hw, -⟩ := PortMap.wf_iff.1 hm
  simp only [List.nodup_cons, List.mem_cons, List.not_mem_nil, not_or, or_false] at hr hw
  cases i with
  | rsta => exact ⟨_, rfl, rfl, by grind [decode, decodeRead, portHit_iff]⟩
  | rtrk => exact ⟨_, rfl, rfl, by grind [decode, decodeRead, portHit_iff]⟩
  | rsec => exact ⟨_, rfl, rfl, by grind [decode, decodeRead, portHit_iff]⟩
  | rdat => exact ⟨_, rfl, rfl, by grind [decode, decodeRead, portHit_iff]⟩
  | wcmd bus => exact ⟨_, rfl, rfl, by grind [decode, decodeWrite, portHit_iff]⟩
  | wtrk bus => exact ⟨_, rfl, rfl, by grind [decode, decodeWrite, portHit_iff]⟩
  | wsec bus => exact ⟨_, rfl, rfl, by grind [decode, decodeWrite, portHit_iff]⟩
  | wdat bus => exact ⟨_, rfl, rfl, by grind [decode, decodeWrite, portHit_iff]⟩
  | _ => cases hf

/-- An operation of format CRU8 is encoded as a write at its distance from `CRU_BASE`, and the decoder subtracts
`CRU_BASE` again (R69). -/
theorem decodeCru_encode (m : PortMap) {i : Instr} (hf : i.format = .cru8) :
    ∃ addr v, encode m i = some (.cruWrite addr v) ∧ decodeCru m addr v = .ok i := by
  cases i with
  | cru0 v => exact ⟨_, v, rfl, by simp [decodeCru]⟩
  | cru1 v => exact ⟨_, v, rfl, by simp [decodeCru]⟩
  | cru2 v => exact ⟨_, v, rfl, by simp [decodeCru]⟩
  | cru3 v => exact ⟨_, v, rfl, by simp [decodeCru]⟩
  | cru4 v => exact ⟨_, v, rfl, by simp [decodeCru]⟩
  | cru5 v => exact ⟨_, v, rfl, by simp [decodeCru]⟩
  | cru6 v => exact ⟨_, v, rfl, by simp [decodeCru]⟩
  | cru7 v => exact ⟨_, v, rfl, by simp [decodeCru]⟩
  | _ => cases hf

/-! ### The statements about the encodings -/

/-- Settles O2, by the format the operation arrives through (30_encoding.md R60). -/
theorem encodeDecodeRoundTrip : Obligations.EncodeDecodeRoundTrip := by
  unfold Obligations.EncodeDecodeRoundTrip
  intro m i hm hi
  cases hf : i.format with
  | cmd8 =>
    obtain ⟨cb, he, hd⟩ := decodeCommand_encode m hf
    exact ⟨_, he, rfl, congrArg Except.ok hd⟩
  | port => exact decode_encode_port hm hf
  | cru8 =>
    obtain ⟨addr, v, he, hd⟩ := decodeCru_encode m hf
    exact ⟨_, he, rfl, hd⟩
  | token8 =>
    obtain ⟨b, he, hd⟩ := decodeToken_encode m hf
    exact ⟨_, he, rfl, congrArg Except.ok hd⟩
  | unit => exact absurd hf hi

/-- Settles O3: the rows written out are the model's, and each direction of the round trip is a lemma above. -/
theorem commandMapPartition : Obligations.CommandMapPartition := by
  unfold Obligations.CommandMapPartition
  refine ⟨fun c k row hmem => ?rows, encode_decodeCommand, encode_decodeToken⟩
  case rows =>
    have hrow : commandRow k = row :=
      (by decide : ∀ x : Cmd × Byte × Byte, x ∈ _ → commandRow x.1 = x.2) (k, row) hmem
    rw [← hrow]
    exact commandRow_iff c k

/-- Settles O1, by evaluating the decoder on each word. -/
theorem decodeSampleWords : Obligations.DecodeSampleWords := by
  unfold Obligations.DecodeSampleWords
  decide

end Sys2Proof
end

section
/-! SUPPORT and proof of what a CRU write does (30_encoding.md R69, 47_controller_interface.md R230). -/

namespace Sys2Proof.Machine

/-- The head is bit 7 of the latch (47_controller_interface.md R230). -/
theorem headOf_eq (bits : Byte) : headOf bits = BitVec.ofBool (bits.getLsbD 7) :=
  (ofBool_getElem bits (by decide)).symm

/-- A CRU write sets its own bit of the latch and no other. -/
theorem latchBit_getLsbD (bits : Byte) {n k : Nat} (v : Bool) (hk : k < 8) :
    (latchBit bits n v).getLsbD k = if k = n then v else bits.getLsbD k := by
  have hpow : (BitVec.twoPow 8 n).getLsbD k = decide (n = k) := by
    rw [BitVec.getLsbD_twoPow]
    grind
  cases v with
  | true =>
    rw [latchBit, if_pos rfl, BitVec.getLsbD_or, hpow]
    grind
  | false =>
    rw [latchBit, if_neg Bool.false_ne_true, BitVec.getLsbD_and, BitVec.getLsbD_not, hpow]
    grind

/-- The eight CRU operations are the latch write of their bits (30_encoding.md R69). -/
theorem exec_of_cruRow {s : State} {v : Bool} {n : Nat} {i : Instr}
    (h : (n, i) ∈ [(0, Instr.cru0 v), (1, .cru1 v), (2, .cru2 v), (3, .cru3 v), (4, .cru4 v), (5, .cru5 v),
      (6, .cru6 v), (7, .cru7 v)]) : exec i s = .next (cruWrite n v s) := by
  simp only [List.mem_cons, List.not_mem_nil, or_false, Prod.mk.injEq] at h
  obtain ⟨rfl, rfl⟩ | ⟨rfl, rfl⟩ | ⟨rfl, rfl⟩ | ⟨rfl, rfl⟩ | ⟨rfl, rfl⟩ | ⟨rfl, rfl⟩ | ⟨rfl, rfl⟩ |
    ⟨rfl, rfl⟩ := h
  all_goals rfl

/-- Settles O41: the latch with its one bit set is the witness, and drive and head are read off it. -/
theorem cruWrites : Obligations.CruWrites := by
  unfold Obligations.CruWrites
  intro s v n i hmem
  refine ⟨latchBit s.hardwareBits n v, ?_, fun k hk => latchBit_getLsbD _ v hk⟩
  rw [exec_of_cruRow hmem, cruWrite_eq, headOf_eq]
  rfl

end Sys2Proof.Machine
end

section
/-! SUPPORT and proof of what the operations of the CRC register do (40_crc16.md R91 to R94). -/

namespace Sys2Proof.Machine

/-- The step of the register with the feedback polynomial written out (40_crc16.md R93). -/
theorem crcUpdateBit_eq (c : Word16) (b : Bool) :
    crcUpdateBit c b = if c.getLsbD 15 ^^ b then (c <<< 1) ^^^ 0x1021#16 else c <<< 1 := rfl

/-- The byte step is the bit step over bits 7 down to 0 (40_crc16.md R94). -/
theorem crcUpdateByte_eq (c : Word16) (d : Byte) :
    crcUpdateByte c d = [7, 6, 5, 4, 3, 2, 1, 0].foldl
      (fun (c : Word16) i => if c.getLsbD 15 ^^ d.getLsbD i then (c <<< 1) ^^^ 0x1021#16 else c <<< 1) c := by
  simp only [crcUpdateByte, crcUpdateBit_eq]

theorem exec_crcInit (v : Word16) (s : State) : exec (.crcInit v) s = .next (reply .nothing (leaveCrc v s)) := rfl

theorem exec_crcUpdateBit (b : Bool) (s : State) :
    exec (.crcUpdateBit b) s = .next (reply .nothing { s with crc := crcUpdateBit s.crc b }) :=
  (crcStep_eq_next (f := fun c => crcUpdateBit c b)).2 rfl

theorem exec_crcUpdateByte (d : Byte) (s : State) :
    exec (.crcUpdateByte d) s = .next (reply .nothing { s with crc := crcUpdateByte s.crc d }) :=
  (crcStep_eq_next (f := fun c => crcUpdateByte c d)).2 rfl

/-- Asking for an initialised register answers it. -/
theorem step_crcValue_next {s : State} {rest : List Event} (h : s.crcReady = true)
    (hp : s.pending = .crcValue :: rest) :
    step s = .next (reply (.word s.crc) { s with pending := rest }) := by
  rw [step_of_pending hp]
  exact crcValue_eq_next.2 ⟨h, rfl⟩

/-- Settles O8: each operation is an update of the register and the result; the two steps of the register are
then written out to the polynomial. -/
theorem crcRegisterOperations : Obligations.CrcRegisterOperations := by
  unfold Obligations.CrcRegisterOperations
  refine ⟨fun s v => exec_crcInit v s, fun s b => ?bit, fun s d => ?byte,
    fun s rest hp h => step_crcValue_next h hp⟩
  case bit =>
    rw [exec_crcUpdateBit, crcUpdateBit_eq]
    rfl
  case byte =>
    rw [exec_crcUpdateByte, crcUpdateByte_eq]
    rfl

end Sys2Proof.Machine
end

section
/-! SUPPORT and proof of what the creation, the seek and the positions of a bit-stream reader do
(41_bitstream.md R110, R111, R114). -/

namespace Sys2Proof.Machine

/-- What goes on with a reader that was created gets that reader. -/
theorem withReader_of_getElem? {h : Nat} {s : State} {r : BitReader} (hr : s.readers[h]? = some r)
    (f : BitReader → Out) : withReader h s f = f r := by
  rw [withReader, hr, orRefuse_some]

/-- A creation whose bits the buffer holds appends the reader (R110). -/
theorem exec_newBitStream_of_le {buf : List Byte} {totalBits : Nat} (hlen : totalBits ≤ 8 * buf.length)
    (order : BitOrder) (skip : Bool) (s : State) :
    exec (.newBitStream buf totalBits order skip) s = .next (reply (.reader s.readers.length)
      { s with readers := s.readers ++ [newBitReader buf totalBits order skip] }) :=
  if_pos hlen

/-- A creation with more bits than the buffer holds is refused (R110). -/
theorem exec_newBitStream_of_lt {buf : List Byte} {totalBits : Nat} (hlen : 8 * buf.length < totalBits)
    (order : BitOrder) (skip : Bool) (s : State) :
    exec (.newBitStream buf totalBits order skip) s = .refused .bitStreamTooLong :=
  if_neg (Nat.not_le.2 hlen)

/-- A seek answers whether the place is within the bits, and the cursor goes there or to the end (R114). -/
theorem BitReader.seek_eq (r : BitReader) (o : Nat) :
    r.seek o = (decide (o * r.stride ≤ r.totalBits),
      { r with bitOffset := if o * r.stride ≤ r.totalBits then o * r.stride else r.totalBits }) := by
  by_cases hin : o * r.stride ≤ r.totalBits
  · simp [BitReader.seek, hin]
  · simp [BitReader.seek, hin, Nat.not_le.1 hin]

theorem exec_bitSeek {s : State} {h : Nat} {r : BitReader} (hr : s.readers[h]? = some r) (o : Nat) :
    exec (.bitSeek h o) s = .next (reply (.truth (r.seek o).1) (s.putReader h (r.seek o).2)) :=
  withReader_of_getElem? hr _

theorem exec_bitPositions {s : State} {h : Nat} {r : BitReader} (hr : s.readers[h]? = some r) :
    exec (.bitPositions h) s = .next (reply (.positions r.offset r.size r.remaining) s) :=
  withReader_of_getElem? hr _

/-- Settles O18, by whether the buffer holds the bits. -/
theorem newBitStreamOperation : Obligations.NewBitStreamOperation := by
  unfold Obligations.NewBitStreamOperation
  exact fun s _ _ order skip =>
    ⟨fun hlen => exec_newBitStream_of_le hlen order skip s,
      fun hlen => exec_newBitStream_of_lt hlen order skip s⟩

/-- Settles O20: the seek in its closed form, and the positions as divisions by the stride (R111). -/
theorem bitStreamSeekAndPositions : Obligations.BitStreamSeekAndPositions := by
  unfold Obligations.BitStreamSeekAndPositions
  intro s h r hr
  refine ⟨fun o => ?seek, exec_bitPositions hr⟩
  case seek =>
    rw [exec_bitSeek hr, BitReader.seek_eq]
    rfl

end Sys2Proof.Machine
end

section
/-! SUPPORT and proof of what the synchronization detector answers (42_sync_detector.md R126, R128, R132, R133).
The model masks the register where the statement takes its low 15 bits, and lists the four legal MFM triples
where the statement gives the rule of the clock bit; each of the two is tied to the other here. -/

namespace Sys2Proof.Machine

/-- Comparing the masked register is comparing its low 15 bits (R128). -/
theorem low15_eq_setWidth_iff (reg : Word16) (k : BitVec 15) :
    reg &&& 0x7FFF#16 = k.setWidth 16 ↔ reg.setWidth 15 = k := by
  have hmask : (reg &&& 0x7FFF#16).toNat = reg.toNat % 2 ^ 15 :=
    (BitVec.toNat_and ..).trans (Nat.and_two_pow_sub_one_eq_mod reg.toNat 15)
  have hwide : (k.setWidth 16).toNat = k.toNat := BitVec.toNat_setWidth_of_le (by decide)
  rw [← BitVec.toNat_inj, ← BitVec.toNat_inj, hmask, hwide, BitVec.toNat_setWidth]

/-- The report of the MFM test through the low 15 bits of the register (R128, R129). -/
theorem syncTestMfm_eq (reg : Word16) (filled : Nat) (hunting : Bool) (cell : Nat) :
    syncTestMfm reg filled hunting cell =
      if filled < 16 then none
      else if reg.setWidth 15 = 0x4489#15 then some (0x0A#8, 0xA1#8)
      else if reg.setWidth 15 = 0x5224#15 ∧ (hunting = true ∨ cell % 2 = 0) then some (0x14#8, 0xC2#8)
      else none := by
  have h4489 : reg &&& 0x7FFF#16 = 0x4489#16 ↔ reg.setWidth 15 = 0x4489#15 := low15_eq_setWidth_iff reg 0x4489#15
  have h5224 : reg &&& 0x7FFF#16 = 0x5224#16 ↔ reg.setWidth 15 = 0x5224#15 := low15_eq_setWidth_iff reg 0x5224#15
  simp only [syncTestMfm, h4489, h5224]

/-- The FM clock is lost where a clock bit is not set (R132). -/
theorem lostClockFm_eq (reg : Word16) (cell : Nat) :
    lostClockFm reg cell = decide (cell % 2 = 1 ∧ reg.getLsbD 0 = false) := by
  rw [lostClockFm, Bool.decide_and, Bool.decide_eq_false]

/-- The four legal triples are those whose clock bit is 1 exactly between two zeros (R133). -/
theorem legalTriple_iff (t : BitVec 3) :
    [0b010#3, 0b001#3, 0b100#3, 0b101#3].contains t = true ↔
      t.getLsbD 1 = (!t.getLsbD 2 && !t.getLsbD 0) := by
  revert t
  decide

/-- The MFM clock is lost where a clock bit does not follow from the data bits beside it (R133). -/
theorem lostClockMfm_eq (reg : Word16) (cell : Nat) :
    lostClockMfm reg cell =
      decide (cell % 2 = 0 ∧ reg.getLsbD 1 ≠ (!reg.getLsbD 2 && !reg.getLsbD 0)) := by
  have hbit : ∀ i < 3, (reg.extractLsb' 0 3).getLsbD i = reg.getLsbD i := fun i hi => by
    rw [BitVec.getLsbD_extractLsb', Nat.zero_add, decide_eq_true hi, Bool.true_and]
  have hlegal := legalTriple_iff (reg.extractLsb' 0 3)
  rw [hbit 0 (by decide), hbit 1 (by decide), hbit 2 (by decide)] at hlegal
  simp only [lostClockMfm, Bool.decide_and, ne_eq, ← hlegal, decide_not, Bool.decide_eq_true]

/-! ### The operations are these answers and nothing else -/

theorem exec_syncTestFm (reg : Word16) (filled : Nat) (hunting : Bool) (cell : Nat) (s : State) :
    exec (.syncTestFm reg filled hunting cell) s =
      .next (reply (.sync (syncTestFm reg filled hunting cell)) s) := rfl

theorem exec_syncTestMfm (reg : Word16) (filled : Nat) (hunting : Bool) (cell : Nat) (s : State) :
    exec (.syncTestMfm reg filled hunting cell) s =
      .next (reply (.sync (syncTestMfm reg filled hunting cell)) s) := rfl

theorem exec_lostClockFm (reg : Word16) (cell : Nat) (s : State) :
    exec (.lostClockFm reg cell) s = .next (reply (.truth (lostClockFm reg cell)) s) := rfl

theorem exec_lostClockMfm (reg : Word16) (cell : Nat) (s : State) :
    exec (.lostClockMfm reg cell) s = .next (reply (.truth (lostClockMfm reg cell)) s) := rfl

/-- Settles O21: each operation replies with its pure answer, and the three answers that the model writes
differently are put in the form of the statement. -/
theorem syncDetectorOperations : Obligations.SyncDetectorOperations := by
  unfold Obligations.SyncDetectorOperations
  intro s reg filled hunting cell
  refine ⟨?syncFm, ?syncMfm, ?lostFm, ?lostMfm⟩
  case syncFm => exact exec_syncTestFm reg filled hunting cell s
  case syncMfm =>
    rw [exec_syncTestMfm, syncTestMfm_eq]
    rfl
  case lostFm =>
    rw [exec_lostClockFm, lostClockFm_eq]
    rfl
  case lostMfm =>
    rw [exec_lostClockMfm, lostClockMfm_eq]
    rfl

end Sys2Proof.Machine
end

section
/-! SUPPORT and proof of what `Decode` does as an operation (43_fm_mfm_decoder.md R140): the bits a reader delivers
until `EOF` are the samples at the places of its logical bits (41_bitstream.md R112, R113). -/

namespace Sys2Proof.Machine

/-! ### The logical bit at the cursor -/

/-- A mask of one bit tests that bit. -/
theorem and_twoPow_bne_zero (x : Byte) {i : Nat} (hi : i < 8) :
    (x &&& BitVec.twoPow 8 i != 0#8) = x.getLsbD i := by
  have hpow : BitVec.twoPow 8 i ≠ 0#8 := by
    intro h
    have hbit := congrArg (·.getLsbD i) h
    simp [hi] at hbit
  rw [BitVec.and_twoPow]
  cases x.getLsbD i <;> simp [hpow]

/-- A mask made of two masks tests for either. -/
theorem and_or_bne_zero (x a b : Byte) :
    (x &&& (a ||| b) != 0#8) = ((x &&& a != 0#8) || (x &&& b != 0#8)) := by
  rw [BitVec.and_or_distrib_left, Bool.eq_iff_iff]
  simp only [bne_iff_ne, Bool.or_eq_true, ne_eq, BitVec.or_eq_zero_iff]
  exact Decidable.not_and_iff_not_or_not

/-- The shift and the mask of R112, R113 read the sample at the cursor. -/
theorem BitReader.extract_eq_sample (r : BitReader) :
    r.extract (r.buf.getD (r.bitOffset / 8) 0#8) = r.sample := by
  have hk : r.bitOffset % 8 < 8 := Nat.mod_lt _ (by decide)
  have hlsbTwo : (0x03#8 : Byte) = BitVec.twoPow 8 0 ||| BitVec.twoPow 8 1 := by decide
  have hlsbOne : (0x01#8 : Byte) = BitVec.twoPow 8 0 := by decide
  have hmsbTwo : (0xC0#8 : Byte) = BitVec.twoPow 8 7 ||| BitVec.twoPow 8 6 := by decide
  have hmsbOne : (0x80#8 : Byte) = BitVec.twoPow 8 7 := by decide
  unfold BitReader.extract BitReader.mask BitReader.sample
  generalize r.buf.getD (r.bitOffset / 8) 0#8 = byte
  generalize r.bitOffset % 8 = k at hk ⊢
  have hseven : ¬7 < k := by omega
  have hsix : decide (6 < k) = !decide (k < 7) := by
    rw [← decide_not, decide_eq_decide, Nat.not_lt, Nat.succ_le_iff]
  cases r.order with
  | lsb =>
    cases r.skip with
    | true => simp [hlsbTwo, and_or_bne_zero, and_twoPow_bne_zero, -BitVec.getLsbD_eq_getElem]
    | false => simp [hlsbOne, and_twoPow_bne_zero, -BitVec.getLsbD_eq_getElem]
  | msb =>
    cases r.skip with
    | true =>
      simp [hmsbTwo, and_or_bne_zero, and_twoPow_bne_zero, hseven, hsix, -BitVec.getLsbD_eq_getElem]
    | false => simp [hmsbOne, and_twoPow_bne_zero, hseven, -BitVec.getLsbD_eq_getElem]

/-! ### Draining a reader -/

/-- A logical bit that is left is delivered, and the cursor moves on by the stride (R112). -/
theorem BitReader.next?_of_left {r : BitReader} (hlen : r.totalBits ≤ 8 * r.buf.length)
    (hleft : r.bitOffset + r.stride ≤ r.totalBits) :
    r.next? = some (some r.sample, { r with bitOffset := r.bitOffset + r.stride }) := by
  rw [BitReader.next?_inBuffer hlen, if_neg (Nat.not_lt.2 hleft), BitReader.extract_eq_sample]

/-- The sample `k` logical bits after the cursor. -/
def BitReader.sampleAt (r : BitReader) (k : Nat) : Bool :=
  ({ r with bitOffset := r.bitOffset + k * r.stride } : BitReader).sample

@[simp] theorem BitReader.sampleAt_zero (r : BitReader) : r.sampleAt 0 = r.sample := by
  simp [BitReader.sampleAt]

/-- The samples after the next one are those of the reader that has delivered it. -/
theorem BitReader.sampleAt_advanced (r : BitReader) (k : Nat) :
    BitReader.sampleAt { r with bitOffset := r.bitOffset + r.stride } k = r.sampleAt (k + 1) := by
  have hcursor : r.bitOffset + r.stride + k * r.stride = r.bitOffset + (k + 1) * r.stride := by
    rw [Nat.succ_mul, Nat.add_comm (k * _), Nat.add_assoc]
  rw [BitReader.sampleAt, BitReader.sampleAt, ← hcursor]
  rfl

/-- Draining as many logical bits as are left at least delivers that many samples (R140). -/
theorem BitReader.drain_of_left {r : BitReader} (hlen : r.totalBits ≤ 8 * r.buf.length) {n : Nat}
    (hleft : r.bitOffset + n * r.stride ≤ r.totalBits) :
    r.drain n = some ((List.range n).map r.sampleAt, { r with bitOffset := r.bitOffset + n * r.stride }) := by
  induction n generalizing r with
  | zero => simp [BitReader.drain]
  | succ n ih =>
    have hcursor : r.bitOffset + (n + 1) * r.stride = r.bitOffset + r.stride + n * r.stride := by
      rw [Nat.succ_mul, Nat.add_comm (n * _), Nat.add_assoc]
    rw [hcursor] at hleft ⊢
    have hnext := BitReader.next?_of_left hlen ((Nat.le_add_right _ _).trans hleft)
    have hrest := ih (r := { r with bitOffset := r.bitOffset + r.stride }) hlen hleft
    have hsamples : (List.range (n + 1)).map r.sampleAt = r.sample ::
        (List.range n).map (BitReader.sampleAt { r with bitOffset := r.bitOffset + r.stride }) := by
      simp [List.range_succ_eq_map, BitReader.sampleAt_advanced, Function.comp_def]
    rw [BitReader.drain, hnext]
    simp only [hrest, hsamples]
    rfl

/-- What remains of a reader is inside its bits (R111). -/
theorem BitReader.offset_add_remaining_le {r : BitReader} (hoff : r.bitOffset ≤ r.totalBits) :
    r.bitOffset + r.remaining * r.stride ≤ r.totalBits := by
  have h : r.remaining * r.stride ≤ r.totalBits - r.bitOffset := Nat.div_mul_le_self _ _
  omega

/-! ### The operation -/

theorem exec_decode_bits {fmt : TrackFormat} {d : Density} (hd : fmt.density? = some d) (raw : List Bool)
    (s : State) :
    exec (.decode fmt (.bits raw)) s = .next (reply (.fragments (decodeBits d raw)) s) := by
  change withDensity fmt _ = _
  rw [withDensity, hd, orRefuse_some]

theorem exec_decode_reader {fmt : TrackFormat} {d : Density} (hd : fmt.density? = some d) {s : State}
    {h : Nat} {r r' : BitReader} (hr : s.readers[h]? = some r) {raw : List Bool}
    (hdrain : r.drain r.remaining = some (raw, r')) :
    exec (.decode fmt (.reader h)) s = .next (reply (.fragments (decodeBits d raw)) (s.putReader h r')) := by
  change withDensity fmt _ = _
  rw [withDensity, hd, orRefuse_some]
  simp only [withReader_of_getElem? hr, hdrain, orRefuse_some]

theorem exec_decode_unknown (src : RawSource) (s : State) :
    exec (.decode .unknown src) s = .refused .unknownFormat := rfl

/-- Settles O23: a reader with its bits in its buffer delivers the samples of all that remain. -/
theorem decodeOperation : Obligations.DecodeOperation := by
  unfold Obligations.DecodeOperation
  refine ⟨?bits, ?reader, ?unknown⟩
  case bits => exact fun s fmt d raw hd => exec_decode_bits hd raw s
  case reader =>
    intro s fmt d h r hd hr hoff hlen
    exact exec_decode_reader hd hr
      (BitReader.drain_of_left hlen (BitReader.offset_add_remaining_le hoff))
  case unknown => exact fun s src => exec_decode_unknown src s

end Sys2Proof.Machine
end

section
/-! SUPPORT and proof of what the codec's decoder returns (43_fm_mfm_decoder.md R141 to R152). The invariant of one
bit time says that the register holds the last sixteen bits, that an open fragment is framed by the cell counter, and
that the fragments so far, the open one among them, have the shape of a result. A sync report trims only the last
of these, because every earlier one ends where that one starts, or before. -/

namespace Sys2Proof.Machine

/-! ### The register holds the last sixteen bits (R143) -/

theorem cellOfBits_concat (bits : List Bool) (b : Bool) :
    cellOfBits (bits ++ [b]) = (cellOfBits bits <<< 1) ||| (BitVec.ofBool b).setWidth 16 :=
  List.foldl_concat ..

/-- Later bits push the earlier ones up. -/
theorem cellOfBits_append (older bits : List Bool) :
    cellOfBits (older ++ bits) = (cellOfBits older <<< bits.length) ||| cellOfBits bits := by
  induction bits using List.reverseRecOn with
  | nil => simp [cellOfBits]
  | append_singleton bits b ih =>
    rw [← List.append_assoc, cellOfBits_concat, ih, cellOfBits_concat, BitVec.shiftLeft_or_distrib,
      ← BitVec.shiftLeft_add, List.length_append, List.length_singleton, BitVec.or_assoc]

/-- Sixteen bits after it, nothing of a bit is left. -/
theorem cellOfBits_append_sixteen {older bits : List Bool} (h : bits.length = 16) :
    cellOfBits (older ++ bits) = cellOfBits bits := by
  rw [cellOfBits_append, BitVec.shiftLeft_eq_zero h.ge, BitVec.zero_or]

/-- The window that ends at a place holds the bits before that place. -/
theorem window_eq_cellOfBits_take {raw : List Bool} {x : Nat} (hx : x + 16 ≤ raw.length) :
    window raw x = cellOfBits (raw.take (x + 16)) := by
  have hlen : ((raw.drop x).take 16).length = 16 := by
    rw [List.length_take, List.length_drop]
    omega
  rw [window, List.take_add, cellOfBits_append_sixteen hlen]

/-! ### What a sync report says -/

/-- A report is also made of the same register while hunting (42_sync_detector.md R126, R128). -/
theorem syncTest_hunting {d : Density} {reg : Word16} {filled : Nat} {hunting : Bool} {cell : Nat}
    {m : Byte × Byte} (h : syncTest d reg filled hunting cell = some m) :
    16 ≤ filled ∧ syncTest d reg 16 true 0 = some m := by
  have hfilled : ¬filled < 16 := by
    intro hlt
    cases d <;> simp [syncTest, syncTestFm, syncTestMfm, hlt] at h
  refine ⟨Nat.le_of_not_lt hfilled, ?_⟩
  cases d with
  | fm => rwa [syncTest, syncTestFm, if_neg hfilled] at h
  | mfm =>
    rw [syncTest, syncTestMfm, if_neg hfilled] at h
    rw [syncTest, syncTestMfm, if_neg (by decide)]
    split at h
    · next ha1 => rwa [if_pos ha1]
    · next ha1 =>
      split at h
      · next hc2 => rwa [if_neg ha1, if_pos ⟨hc2.1, .inl rfl⟩]
      · cases h

/-- A report names a recognised mark (30_encoding.md R76, R77). -/
theorem syncTest_mem_marksOf {d : Density} {reg : Word16} {filled : Nat} {hunting : Bool} {cell : Nat}
    {m : Byte × Byte} (h : syncTest d reg filled hunting cell = some m) :
    ((m.1.toNat : Int), m.2) ∈ marksOf d := by
  cases d with
  | fm =>
    simp only [syncTest, syncTestFm] at h
    split_ifs at h <;> cases h <;> decide
  | mfm =>
    simp only [syncTest, syncTestMfm] at h
    split_ifs at h <;> cases h <;> decide

/-- The byte of a report is the data bits of the register (42_sync_detector.md R127, R130). -/
theorem syncTest_data {d : Density} {reg : Word16} {filled : Nat} {hunting : Bool} {cell : Nat}
    {m : Byte × Byte} (h : syncTest d reg filled hunting cell = some m) : m.2 = dataOf reg := by
  cases d with
  | fm => exact (syncTestFm_report (hunting := hunting) (cell := cell) h).2
  | mfm => exact (syncTestMfm_report h).2

/-! ### One fragment of a result -/

/-- What R144 and R152 (c) to (e) say of one fragment of the first `n` bits. -/
structure DecodedFragment (d : Density) (raw : List Bool) (n : Nat) (f : Fragment) : Prop where
  nonempty : 1 ≤ f.byteData.length
  ends : f.bitOffsetEnd = f.bitOffsetStart + 16 * f.byteData.length
  inside : f.bitOffsetEnd ≤ n
  kind : f.clock = -1 ∨ markWindow d raw f.bitOffsetStart = true ∧
    ∃ b, f.byteData.head? = some b ∧ (f.clock, b) ∈ marksOf d
  cells : ∀ (k : Nat) (b : Byte), f.byteData[k]? = some b → b = dataOf (window raw (f.bitOffsetStart + 16 * k))

/-- A fragment with its first `j` bytes only (R148). -/
def keepBytes (j : Nat) (f : Fragment) : Fragment :=
  { f with bitOffsetEnd := f.bitOffsetStart + 16 * j, byteData := f.byteData.take j }

/-- The fragment a sync report opens (R147). -/
def markFragment (start : Nat) (m : Byte × Byte) : Fragment :=
  { bitOffsetStart := start, bitOffsetEnd := start + 16, clock := (m.1.toNat : Int), byteData := [m.2] }

/-- The run of `n` bytes recovered before a sync point (R149). -/
def recoveredRun (raw : List Bool) (start n : Nat) : Fragment :=
  { bitOffsetStart := start - 16 * n
    bitOffsetEnd := start
    clock := -1
    byteData := (List.range n).map fun k => dataOf (window raw (start - 16 * n + 16 * k)) }

/-- A fragment with one more byte (R144). -/
def appendByte (b : Byte) (f : Fragment) : Fragment :=
  { f with bitOffsetEnd := f.bitOffsetEnd + 16, byteData := f.byteData ++ [b] }

section
variable {d : Density} {raw : List Bool} {n m : Nat} {f : Fragment}

theorem DecodedFragment.start_add_sixteen_le (hf : DecodedFragment d raw n f) :
    f.bitOffsetStart + 16 ≤ f.bitOffsetEnd := by
  have h1 := hf.nonempty
  have h2 := hf.ends
  omega

theorem DecodedFragment.within (hf : DecodedFragment d raw n f) (hm : f.bitOffsetEnd ≤ m) :
    DecodedFragment d raw m f :=
  { hf with inside := hm }

theorem DecodedFragment.markWindow_start (hf : DecodedFragment d raw n f) (hc : f.clock ≠ -1) :
    markWindow d raw f.bitOffsetStart = true :=
  (hf.kind.resolve_left hc).1

/-- Dropping bytes from the end keeps the mark byte and the cells of the others. -/
theorem DecodedFragment.keep (hf : DecodedFragment d raw n f) {j : Nat} (hj : 1 ≤ j)
    (hlen : j ≤ f.byteData.length) (hm : f.bitOffsetStart + 16 * j ≤ m) :
    DecodedFragment d raw m (keepBytes j f) where
  nonempty := by
    rw [keepBytes, List.length_take]
    omega
  ends := by rw [keepBytes, List.length_take, Nat.min_eq_left hlen]
  inside := hm
  kind := by
    have hhead : (f.byteData.take j).head? = f.byteData.head? := by
      rw [List.head?_take, if_neg (Nat.one_le_iff_ne_zero.1 hj)]
    rw [keepBytes, hhead]
    exact hf.kind
  cells k b hk := by
    have hk : (f.byteData.take j)[k]? = some b := hk
    rw [List.getElem?_take] at hk
    split at hk
    · exact hf.cells k b hk
    · cases hk

/-- The next byte is the data bits of the sixteen bits after the last one. -/
theorem DecodedFragment.append (hf : DecodedFragment d raw n f) (hm : f.bitOffsetEnd + 16 ≤ m) :
    DecodedFragment d raw m (appendByte (dataOf (window raw f.bitOffsetEnd)) f) where
  nonempty := by simp [appendByte]
  ends := by
    have := hf.ends
    simp only [appendByte, List.length_append, List.length_singleton]
    omega
  inside := hm
  kind := by
    have hne : f.byteData ≠ [] := List.ne_nil_of_length_pos hf.nonempty
    rw [appendByte, List.head?_append_of_ne_nil _ hne]
    exact hf.kind
  cells k b hk := by
    have hk : (f.byteData ++ [dataOf (window raw f.bitOffsetEnd)])[k]? = some b := hk
    rcases Nat.lt_or_ge k f.byteData.length with hlt | hge
    · rw [List.getElem?_append_left hlt] at hk
      exact hf.cells k b hk
    · obtain ⟨hk0, hb⟩ : k - f.byteData.length = 0 ∧ dataOf (window raw f.bitOffsetEnd) = b := by
        rw [List.getElem?_append_right hge] at hk
        simpa [List.getElem?_singleton] using hk
      have hplace : f.bitOffsetStart + 16 * k = f.bitOffsetEnd := by
        rw [hf.ends]
        omega
      exact hplace ▸ hb.symm

/-- A report on the window at `start` opens a fragment with the mark byte. -/
theorem decodedFragment_markFragment {start : Nat} {r : Byte × Byte} (hmark : markWindow d raw start = true)
    (hmem : ((r.1.toNat : Int), r.2) ∈ marksOf d) (hdata : r.2 = dataOf (window raw start)) :
    DecodedFragment d raw (start + 16) (markFragment start r) where
  nonempty := le_rfl
  ends := rfl
  inside := le_rfl
  kind := .inr ⟨hmark, r.2, rfl, hmem⟩
  cells k b hk := by
    obtain ⟨rfl, rfl⟩ : k = 0 ∧ r.2 = b := by simpa [markFragment, List.getElem?_singleton] using hk
    exact hdata

theorem decodedFragment_recoveredRun {start k : Nat} (hk : 1 ≤ k) (hroom : 16 * k ≤ start) :
    DecodedFragment d raw start (recoveredRun raw start k) where
  nonempty := by simpa [recoveredRun] using hk
  ends := by
    simp only [recoveredRun, List.length_map, List.length_range]
    omega
  inside := le_rfl
  kind := .inl rfl
  cells i b hi := by
    rw [recoveredRun, List.getElem?_map, Option.map_eq_some_iff] at hi
    obtain ⟨j, hj, rfl⟩ := hi
    obtain ⟨-, rfl⟩ := List.getElem?_eq_some_iff.1 hj
    rw [List.getElem_range]
    rfl

/-! ### The fragments of a result, one after another -/

/-- What R152 (b) and (f) say of two fragments that follow one another. -/
def Follows (d : Density) (raw : List Bool) (f g : Fragment) : Prop :=
  f.bitOffsetEnd ≤ g.bitOffsetStart ∧
    (f.clock = -1 → markWindow d raw f.bitOffsetEnd = true ∧
      (g.bitOffsetStart = f.bitOffsetEnd ∨
        f.bitOffsetEnd < g.bitOffsetStart ∧ g.bitOffsetStart < f.bitOffsetEnd + 16 ∧
          ∃ x, f.bitOffsetEnd < x ∧ x < f.bitOffsetEnd + 16 ∧ markWindow d raw x = true))

theorem Follows.congr_start {d : Density} {raw : List Bool} {e f g : Fragment} (h : Follows d raw e f)
    (hstart : g.bitOffsetStart = f.bitOffsetStart) : Follows d raw e g := by
  rw [Follows, hstart]
  exact h

/-- The fragments have the shape of a result of the first `n` bits (R152). -/
structure Decoded (d : Density) (raw : List Bool) (n : Nat) (l : List Fragment) : Prop where
  frags : ∀ f ∈ l, DecodedFragment d raw n f
  order : l.IsChain (Follows d raw)
  first : ∀ f, l.head? = some f → f.clock ≠ -1

variable {l : List Fragment} {g : Fragment}

theorem decoded_nil : Decoded d raw n [] := ⟨by simp, .nil, by simp⟩

theorem decoded_concat_iff :
    Decoded d raw n (l ++ [g]) ↔ Decoded d raw n l ∧ DecodedFragment d raw n g ∧
      (∀ e, l.getLast? = some e → Follows d raw e g) ∧ (l = [] → g.clock ≠ -1) := by
  constructor
  · intro h
    refine ⟨⟨fun f hf => h.frags f (List.mem_append_left _ hf), h.order.left_of_append, fun f hf => ?_⟩,
      h.frags g (by simp), fun e he => ?_, fun hl => h.first g (by simp [hl])⟩
    · exact h.first f (by simp [hf])
    · exact (List.isChain_append.1 h.order).2.2 e he g rfl
  · rintro ⟨hl, hg, hfollows, hfirst⟩
    refine ⟨?_, List.isChain_append.2 ⟨hl.order, .singleton g, ?_⟩, ?_⟩
    · simpa [or_imp, forall_and] using ⟨hl.frags, hg⟩
    · simpa using hfollows
    · cases l with
      | nil => simpa using hfirst
      | cons a l => exact hl.first

theorem Decoded.within (hl : Decoded d raw n l) (h : ∀ f ∈ l, f.bitOffsetEnd ≤ m) : Decoded d raw m l :=
  { hl with frags := fun f hf => (hl.frags f hf).within (h f hf) }

theorem Decoded.mono (hl : Decoded d raw n l) (h : n ≤ m) : Decoded d raw m l :=
  hl.within fun f hf => (hl.frags f hf).inside.trans h

/-- A fragment that is not empty ends where another starts, or before. -/
def Precedes (f g : Fragment) : Prop :=
  f.bitOffsetStart < f.bitOffsetEnd ∧ f.bitOffsetEnd ≤ g.bitOffsetStart

theorem Precedes.trans {e f g : Fragment} (hef : Precedes e f) (hfg : Precedes f g) : Precedes e g :=
  ⟨hef.1, (hef.2.trans hfg.1.le).trans hfg.2⟩

/-- The fragments are in order and never overlap (R152 (a), (b)). -/
theorem Decoded.pairwise (hl : Decoded d raw n l) :
    l.Pairwise Precedes := by
  have : Trans Precedes Precedes Precedes := ⟨Precedes.trans⟩
  exact (hl.order.imp_of_mem_imp fun f g hf _ hfg =>
    ⟨Nat.lt_of_add_right_lt (hl.frags f hf).start_add_sixteen_le, hfg.1⟩).pairwise

/-- What comes before a fragment ends where that one starts, or before. -/
theorem Decoded.ends_le_start (hl : Decoded d raw n (l ++ [g])) : ∀ f ∈ l, f.bitOffsetEnd ≤ g.bitOffsetStart :=
  fun f hf => ((List.pairwise_append.1 hl.pairwise).2.2 f hf g (List.mem_singleton_self g)).2

/-- The last fragment may get another end. -/
theorem Decoded.replace_last (hl : Decoded d raw n (l ++ [g])) {g' : Fragment}
    (hg' : DecodedFragment d raw m g') (hstart : g'.bitOffsetStart = g.bitOffsetStart)
    (hclock : g'.clock = g.clock) : Decoded d raw m (l ++ [g']) := by
  have hends := hl.ends_le_start
  obtain ⟨hbefore, -, hfollows, hfirst⟩ := decoded_concat_iff.1 hl
  have hg'_le := hg'.start_add_sixteen_le.trans hg'.inside
  refine decoded_concat_iff.2 ⟨hbefore.within fun f hf => ?_, hg', fun e he => ?_, hclock ▸ hfirst⟩
  · have := hends f hf
    omega
  · exact (hfollows e he).congr_start hstart

end
/-! ### Trimming (R148) -/

theorem keepBytes_keepBytes {i j : Nat} (h : i ≤ j) (f : Fragment) : keepBytes i (keepBytes j f) = keepBytes i f := by
  simp [keepBytes, List.take_take, Nat.min_eq_left h]

theorem keepBytes_all {f : Fragment} (hends : f.bitOffsetEnd = f.bitOffsetStart + 16 * f.byteData.length) :
    keepBytes f.byteData.length f = f := by
  rw [keepBytes, List.take_length, ← hends]

/-- Popping a byte keeps all but the last. -/
theorem popBytes_succ {start k : Nat} {f : Fragment} (hlen : f.byteData.length = k + 1)
    (hends : f.bitOffsetEnd = f.bitOffsetStart + 16 * (k + 1)) :
    popBytes start (k + 1) f =
      if k = 0 then none
      else if start < f.bitOffsetStart + 16 * k then popBytes start k (keepBytes k f)
      else some (keepBytes k f) := by
  have hdrop : f.byteData.dropLast = f.byteData.take k := by
    rw [List.dropLast_eq_take, hlen, Nat.add_sub_cancel]
  have hempty : f.byteData.take k = [] ↔ k = 0 := by
    rw [List.take_eq_nil_iff, or_iff_left (List.ne_nil_of_length_eq_add_one hlen)]
  have hend : f.bitOffsetEnd - 16 = f.bitOffsetStart + 16 * k := by omega
  simp only [popBytes, hdrop, hend, hempty, keepBytes]

/-- Popping ends with the bytes that end at the sync point or before it; where there are none, the sync point lies in
the first cell. -/
theorem popBytes_cases {start k : Nat} {f : Fragment} (hlen : f.byteData.length = k)
    (hends : f.bitOffsetEnd = f.bitOffsetStart + 16 * k) (hover : start < f.bitOffsetEnd) :
    (∃ j, 1 ≤ j ∧ j ≤ k ∧ f.bitOffsetStart + 16 * j ≤ start ∧ popBytes start k f = some (keepBytes j f)) ∨
      popBytes start k f = none ∧ start < f.bitOffsetStart + 16 := by
  induction k generalizing f with
  | zero => exact .inr ⟨rfl, by omega⟩
  | succ k ih =>
    rw [popBytes_succ hlen hends]
    rcases Nat.eq_zero_or_pos k with rfl | hpos
    · exact .inr ⟨if_pos rfl, by omega⟩
    rw [if_neg hpos.ne']
    by_cases hmore : start < f.bitOffsetStart + 16 * k
    · have hkeep : (keepBytes k f).byteData.length = k := by
        rw [keepBytes, List.length_take]
        omega
      rw [if_pos hmore]
      rcases ih hkeep rfl hmore with ⟨j, hj, hjk, hin, hpop⟩ | hgone
      · exact .inl ⟨j, hj, hjk.trans (Nat.le_succ k), hin, hpop.trans (by rw [keepBytes_keepBytes hjk])⟩
      · exact .inr hgone
    · exact .inl ⟨k, hpos, Nat.le_succ k, Nat.le_of_not_lt hmore, if_neg hmore⟩

theorem trimReversed_of_ends_le {start : Nat} {l : List Fragment} (h : ∀ f ∈ l, f.bitOffsetEnd ≤ start) :
    trimReversed start l = l := by
  cases l with
  | nil => rfl
  | cons f l => exact if_pos (h f List.mem_cons_self)

/-- Where all before the last fragment end in time, trimming keeps bytes of the last one, or drops it. -/
theorem trim_concat_cases {d : Density} {raw : List Bool} {n start : Nat} {l : List Fragment} {g : Fragment}
    (hl : ∀ f ∈ l, f.bitOffsetEnd ≤ start) (hg : DecodedFragment d raw n g) :
    (∃ j, 1 ≤ j ∧ j ≤ g.byteData.length ∧ g.bitOffsetStart + 16 * j ≤ start ∧
        trim start (l ++ [g]) = l ++ [keepBytes j g]) ∨
      trim start (l ++ [g]) = l ∧ start < g.bitOffsetStart + 16 := by
  have hrest : trimReversed start l.reverse = l.reverse :=
    trimReversed_of_ends_le fun f hf => hl f (List.mem_reverse.1 hf)
  rw [trim, List.reverse_concat, trimReversed]
  by_cases hin : g.bitOffsetEnd ≤ start
  · refine .inl ⟨_, hg.nonempty, le_rfl, hg.ends ▸ hin, ?_⟩
    rw [if_pos hin, keepBytes_all hg.ends, List.reverse_cons, List.reverse_reverse]
  rw [if_neg hin]
  rcases popBytes_cases rfl hg.ends (Nat.lt_of_not_le hin) with ⟨j, hj, hjlen, hjin, hpop⟩ | ⟨hpop, hgone⟩
  · refine .inl ⟨j, hj, hjlen, hjin, ?_⟩
    rw [hpop, List.reverse_cons, List.reverse_reverse]
  · refine .inr ⟨?_, hgone⟩
    rw [hpop, hrest, List.reverse_reverse]

/-! ### Recovery and opening (R147, R149) -/

/-- A mark at `start` may come next: the fragments end there or before; and where the last of them is a run, the
fragment of its mark was trimmed away, so that its mark cell and the new one overlap. -/
structure AwaitsMark (d : Density) (raw : List Bool) (start : Nat) (l : List Fragment) : Prop where
  decoded : Decoded d raw start l
  overlapped : ∀ e, l.getLast? = some e → e.clock = -1 → markWindow d raw e.bitOffsetEnd = true ∧
    ∃ y, e.bitOffsetEnd ≤ y ∧ y < e.bitOffsetEnd + 16 ∧ y ≤ start ∧ start < y + 16 ∧ markWindow d raw y = true

section
variable {d : Density} {raw : List Bool} {n start : Nat} {l : List Fragment} {g : Fragment}

theorem awaitsMark_nil : AwaitsMark d raw start [] := ⟨decoded_nil, by simp⟩

/-- What is left before a fragment that a mark overlaps in its first cell. -/
theorem Decoded.awaitsMark_of_gone (hl : Decoded d raw n (l ++ [g])) (hc : g.clock ≠ -1)
    (hle : g.bitOffsetStart ≤ start) (hgone : start < g.bitOffsetStart + 16) : AwaitsMark d raw start l := by
  have hends := hl.ends_le_start
  obtain ⟨hbefore, hg, hfollows, -⟩ := decoded_concat_iff.1 hl
  refine ⟨hbefore.within fun f hf => (hends f hf).trans hle, fun e he hrun => ?_⟩
  obtain ⟨hafter, hexact⟩ := hfollows e he
  obtain ⟨hmark, hplace⟩ := hexact hrun
  have hnear : g.bitOffsetStart < e.bitOffsetEnd + 16 := by
    rcases hplace with heq | ⟨-, hlt, -⟩ <;> omega
  exact ⟨hmark, g.bitOffsetStart, hafter, hnear, hle, hgone, hg.markWindow_start hc⟩

/-- After trimming, the mark may come next. -/
theorem Decoded.awaitsMark_trim (hl : Decoded d raw (start + 16) l)
    (hlast : ∀ f, l.getLast? = some f → f.clock ≠ -1) : AwaitsMark d raw start (trim start l) := by
  rcases List.eq_nil_or_concat' l with rfl | ⟨l, g, rfl⟩
  · exact awaitsMark_nil
  have hc : g.clock ≠ -1 := hlast g (by simp)
  have hends := hl.ends_le_start
  have hg := hl.frags g (by simp)
  have hle : g.bitOffsetStart ≤ start := by
    have := hg.start_add_sixteen_le.trans hg.inside
    omega
  rcases trim_concat_cases (fun f hf => (hends f hf).trans hle) hg with
    ⟨j, hj, hlen, hin, htrim⟩ | ⟨htrim, hgone⟩
  · rw [htrim]
    refine ⟨hl.replace_last (hg.keep hj hlen hin) rfl rfl, fun e he hrun => ?_⟩
    obtain rfl : keepBytes j g = e := by simpa using he
    exact absurd hrun hc
  · rw [htrim]
    exact hl.awaitsMark_of_gone hc hle hgone

/-- What recovery appends to a list with a last fragment. -/
theorem recover_concat (raw : List Bool) (start : Nat) (l : List Fragment) (e : Fragment) :
    recover raw start (l ++ [e]) =
      if (start - e.bitOffsetEnd) / 16 = 0 then l ++ [e]
      else l ++ [e] ++ [recoveredRun raw start ((start - e.bitOffsetEnd) / 16)] := by
  rw [recover, List.getLast?_concat]
  rfl

/-- What starts whole cells before the mark, less than one cell from the last fragment, may follow that one. -/
theorem AwaitsMark.follows (h : AwaitsMark d raw start l) {e f : Fragment} (he : l.getLast? = some e)
    (hmark : markWindow d raw start = true)
    (hf : f.bitOffsetStart = start - 16 * ((start - e.bitOffsetEnd) / 16)) : Follows d raw e f := by
  have hin := (h.decoded.frags e (List.mem_of_getLast? he)).inside
  refine ⟨by omega, fun hrun => ?_⟩
  obtain ⟨hend, y, hy, hnear, hle, hover, hwindow⟩ := h.overlapped e he hrun
  refine ⟨hend, ?_⟩
  rcases Nat.lt_or_ge (start - e.bitOffsetEnd) 16 with hlt | hge
  · rcases Nat.eq_or_lt_of_le hin with heq | hgt
    · exact .inl (by omega)
    · exact .inr ⟨by omega, by omega, start, hgt, by omega, hmark⟩
  · by_cases heq : f.bitOffsetStart = e.bitOffsetEnd
    · exact .inl heq
    · exact .inr ⟨by omega, by omega, y, by omega, hnear, hwindow⟩

/-- Recovery and the new fragment after it keep the shape. -/
theorem AwaitsMark.decoded_recover (h : AwaitsMark d raw start l) (hmark : markWindow d raw start = true)
    {f : Fragment} (hf : DecodedFragment d raw (start + 16) f) (hstart : f.bitOffsetStart = start)
    (hc : f.clock ≠ -1) : Decoded d raw (start + 16) (recover raw start l ++ [f]) := by
  have hl := h.decoded.mono (Nat.le_add_right start 16)
  rcases List.eq_nil_or_concat' l with rfl | ⟨l, e, rfl⟩
  · exact decoded_concat_iff.2 ⟨hl, hf, by simp [recover], fun _ => hc⟩
  have he : (l ++ [e]).getLast? = some e := List.getLast?_concat
  rw [recover_concat]
  split
  · next hnone =>
    refine decoded_concat_iff.2 ⟨hl, hf, fun e' he' => ?_, fun _ => hc⟩
    obtain rfl : e = e' := by simpa using he'
    exact h.follows he hmark (by omega)
  · next hsome =>
    have hrun : DecodedFragment d raw start (recoveredRun raw start ((start - e.bitOffsetEnd) / 16)) :=
      decodedFragment_recoveredRun (by omega) (by omega)
    have hall : Decoded d raw (start + 16)
        (l ++ [e] ++ [recoveredRun raw start ((start - e.bitOffsetEnd) / 16)]) := by
      refine decoded_concat_iff.2 ⟨hl, hrun.within (Nat.le_add_right start 16), fun e' he' => ?_, by simp⟩
      obtain rfl : e = e' := by simpa using he'
      exact h.follows he hmark rfl
    refine decoded_concat_iff.2 ⟨hall, hf, fun e' he' => ?_, fun _ => hc⟩
    obtain rfl : recoveredRun raw start ((start - e.bitOffsetEnd) / 16) = e' := by simpa using he'
    exact ⟨hstart.ge, fun _ => ⟨hmark, .inl hstart⟩⟩

end

/-! ### The state of a decode (R141, R143) -/

/-- The fragments so far, the open one last. -/
def allFragments (st : DecoderState) : List Fragment := st.frags ++ st.cur.toList

theorem closeOpen_frags (st : DecoderState) : (closeOpen st).frags = allFragments st := by
  cases hcur : st.cur <;> simp [closeOpen, allFragments, hcur]

/-- What the second part of a bit time does: nothing while hunting; else it closes the fragment, or appends a byte,
or counts the bit. -/
theorem assemble_cases (d : Density) (st : DecoderState) :
    st.cur = none ∧ assemble d st = st ∨
      ∃ f, st.cur = some f ∧
        (assemble d st = { st with cell := st.cell + 1, frags := st.frags ++ [f], cur := none } ∨
          st.cell + 1 = 16 ∧ assemble d st = { st with
            cur := some { f with byteData := f.byteData ++ [dataOf st.reg], bitOffsetEnd := st.pos }
            cell := 0 } ∨
          assemble d st = { st with cell := st.cell + 1 }) := by
  cases hcur : st.cur with
  | none => exact .inl ⟨rfl, by rw [assemble, hcur]⟩
  | some f =>
    refine .inr ⟨f, rfl, ?_⟩
    simp only [assemble, hcur, closeOpen]
    split
    · exact .inl rfl
    split
    · next hcell => exact .inr (.inl ⟨hcell, rfl⟩)
    · exact .inr (.inr rfl)

/-- What the registers hold after `n` bits. -/
structure RegisterInv (raw : List Bool) (n : Nat) (st : DecoderState) : Prop where
  pos : st.pos = n
  filled : st.filled = min n 16
  reg : st.reg = cellOfBits (raw.take n)

/-- The open fragment is framed by the cell counter, the fragments have the shape of a result of `n` bits, and the
last of them is no recovered run. -/
structure FragmentInv (d : Density) (raw : List Bool) (n : Nat) (st : DecoderState) : Prop where
  framed : ∀ f, st.cur = some f → n = f.bitOffsetEnd + st.cell
  decoded : Decoded d raw n (allFragments st)
  last : ∀ f, (allFragments st).getLast? = some f → f.clock ≠ -1

section
variable {d : Density} {raw : List Bool} {n : Nat} {st : DecoderState}

theorem registerInv_start : RegisterInv raw 0 .start := ⟨rfl, rfl, rfl⟩

theorem RegisterInv.after_shiftIn (h : RegisterInv raw n st) (hn : n < raw.length) :
    RegisterInv raw (n + 1) (shiftIn st raw[n]) where
  pos := congrArg (· + 1) h.pos
  filled := by
    change min (st.filled + 1) 16 = min (n + 1) 16
    rw [h.filled]
    omega
  reg := by
    rw [List.take_add_one, List.getElem?_eq_getElem hn, Option.toList_some, cellOfBits_concat, ← h.reg]
    rfl

theorem RegisterInv.after_assemble (h : RegisterInv raw n st) : RegisterInv raw n (assemble d st) := by
  rcases assemble_cases d st with ⟨-, heq⟩ | ⟨f, -, heq | ⟨-, heq⟩ | heq⟩ <;>
    rw [heq] <;> exact ⟨h.pos, h.filled, h.reg⟩

theorem RegisterInv.after_onSync (h : RegisterInv raw n st) (r : Byte × Byte) : RegisterInv raw n (onSync raw r st) :=
  ⟨h.pos, h.filled, h.reg⟩

theorem RegisterInv.reg_eq_window (h : RegisterInv raw (n + 16) st) (hn : n + 16 ≤ raw.length) :
    st.reg = window raw n := by
  rw [h.reg, window_eq_cellOfBits_take hn]

theorem FragmentInv.of_hunting (hcur : st.cur = none) (hdecoded : Decoded d raw n st.frags)
    (hlast : ∀ f, st.frags.getLast? = some f → f.clock ≠ -1) : FragmentInv d raw n st := by
  have hall : allFragments st = st.frags := by simp [allFragments, hcur]
  exact ⟨by simp [hcur], hall ▸ hdecoded, hall ▸ hlast⟩

theorem fragmentInv_start : FragmentInv d raw 0 .start :=
  .of_hunting rfl decoded_nil (by simp [DecoderState.start])

theorem fragmentInv_of_open_iff {f : Fragment} (hcur : st.cur = some f) :
    FragmentInv d raw n st ↔
      n = f.bitOffsetEnd + st.cell ∧ Decoded d raw n (st.frags ++ [f]) ∧ f.clock ≠ -1 := by
  have hall : allFragments st = st.frags ++ [f] := by simp [allFragments, hcur]
  constructor
  · intro h
    exact ⟨h.framed f hcur, hall ▸ h.decoded, h.last f (by simp [hall])⟩
  · rintro ⟨hframed, hdecoded, hc⟩
    exact ⟨by simpa [hcur] using hframed, hall ▸ hdecoded, by simpa [hall] using hc⟩

/-- The second part of a bit time keeps the shape. -/
theorem FragmentInv.after_assemble (h : FragmentInv d raw n st) (hreg : RegisterInv raw (n + 1) st)
    (hn : n < raw.length) : FragmentInv d raw (n + 1) (assemble d st) := by
  rcases assemble_cases d st with ⟨hcur, heq⟩ | ⟨f, hcur, hf⟩
  case inl =>
    rw [heq]
    exact ⟨by simp [hcur], h.decoded.mono (Nat.le_succ n), h.last⟩
  obtain ⟨hframed, hdecoded, hc⟩ := (fragmentInv_of_open_iff hcur).1 h
  rcases hf with heq | ⟨hcell, heq⟩ | heq
  case inl =>
    rw [heq]
    exact .of_hunting rfl (hdecoded.mono (Nat.le_succ n)) (by simpa using hc)
  case inr.inl =>
    have hend : n + 1 = f.bitOffsetEnd + 16 := by omega
    have hwindow : st.reg = window raw f.bitOffsetEnd :=
      RegisterInv.reg_eq_window (hend ▸ hreg) (hend ▸ hn)
    have hbyte : { f with byteData := f.byteData ++ [dataOf st.reg], bitOffsetEnd := st.pos } =
        appendByte (dataOf (window raw f.bitOffsetEnd)) f := by
      rw [appendByte, hwindow, hreg.pos, hend]
    have hmore := (hdecoded.frags f (by simp)).append hend.ge
    rw [heq, hbyte]
    exact (fragmentInv_of_open_iff rfl).2 ⟨hend, hdecoded.replace_last hmore rfl rfl, hc⟩
  case inr.inr =>
    rw [heq, hcur]
    exact (fragmentInv_of_open_iff rfl).2
      ⟨congrArg (· + 1) hframed, hdecoded.mono (Nat.le_succ n), hc⟩

/-- A sync report keeps the shape (R146 to R149). -/
theorem FragmentInv.after_onSync (h : FragmentInv d raw n st) (hreg : RegisterInv raw n st) (hn : n ≤ raw.length)
    {hunting : Bool} {cell : Nat} {r : Byte × Byte}
    (hsync : syncTest d st.reg st.filled hunting cell = some r) : FragmentInv d raw n (onSync raw r st) := by
  obtain ⟨hfilled, hmark⟩ := syncTest_hunting hsync
  obtain ⟨start, rfl⟩ : ∃ start, n = start + 16 := ⟨n - 16, by rw [hreg.filled] at hfilled; omega⟩
  have hwindow := hreg.reg_eq_window hn
  have hmark : markWindow d raw start = true := by rw [markWindow, ← hwindow, hmark, Option.isSome_some]
  have hnew : DecodedFragment d raw (start + 16) (markFragment start r) :=
    decodedFragment_markFragment hmark (syncTest_mem_marksOf hsync) (hwindow ▸ syncTest_data hsync)
  have hc : (markFragment start r).clock ≠ -1 := by
    change (r.1.toNat : Int) ≠ -1
    omega
  have hcur : (onSync raw r st).cur = some (markFragment start r) := by
    simp [onSync, markFragment, hreg.pos]
  have hfrags : (onSync raw r st).frags = recover raw start (trim start (allFragments st)) := by
    simp [onSync, hreg.pos, closeOpen_frags]
  refine (fragmentInv_of_open_iff hcur).2 ⟨rfl, ?_, hc⟩
  rw [hfrags]
  exact (h.decoded.awaitsMark_trim h.last).decoded_recover hmark hnew rfl hc

/-- One bit time keeps both parts of the invariant (R143). -/
theorem decodeBit_inv (hreg : RegisterInv raw n st) (hfrag : FragmentInv d raw n st) (hn : n < raw.length) :
    RegisterInv raw (n + 1) (decodeBit d raw st raw[n]) ∧ FragmentInv d raw (n + 1) (decodeBit d raw st raw[n]) := by
  have hshift := hreg.after_shiftIn hn
  have hreg' : RegisterInv raw (n + 1) (assemble d (shiftIn st raw[n])) := hshift.after_assemble
  have hshifted : FragmentInv d raw n (shiftIn st raw[n]) := ⟨hfrag.framed, hfrag.decoded, hfrag.last⟩
  have hfrag' := hshifted.after_assemble hshift hn
  simp only [decodeBit]
  split
  · next r hsync => exact ⟨hreg'.after_onSync r, hfrag'.after_onSync hreg' hn hsync⟩
  · exact ⟨hreg', hfrag'⟩

/-- The invariant holds after every number of bits. -/
theorem decode_take_inv (hn : n ≤ raw.length) :
    RegisterInv raw n ((raw.take n).foldl (decodeBit d raw) .start) ∧
      FragmentInv d raw n ((raw.take n).foldl (decodeBit d raw) .start) := by
  induction n with
  | zero => exact ⟨registerInv_start, fragmentInv_start⟩
  | succ n ih =>
    obtain ⟨hreg, hfrag⟩ := ih (Nat.le_of_succ_le hn)
    rw [List.take_add_one, List.getElem?_eq_getElem hn, Option.toList_some, List.foldl_concat]
    exact decodeBit_inv hreg hfrag hn

end

/-! ### The result -/

theorem decodeBits_inv (d : Density) (raw : List Bool) :
    Decoded d raw raw.length (decodeBits d raw) ∧
      ∀ f, (decodeBits d raw).getLast? = some f → f.clock ≠ -1 := by
  obtain ⟨-, hfrag⟩ := decode_take_inv (d := d) (raw := raw) le_rfl
  rw [List.take_length] at hfrag
  rw [decodeBits, closeOpen_frags]
  exact ⟨hfrag.decoded, hfrag.last⟩

/-- Settles O24: the invariant at the end of the stream, its chain read as the order of all pairs and as what the
neighbour of a run is. -/
theorem decodeResultShape : Obligations.DecodeResultShape := by
  unfold Obligations.DecodeResultShape
  intro d raw
  obtain ⟨hdecoded, hlast⟩ := decodeBits_inv d raw
  have hordered := hdecoded.pairwise
  refine ⟨?apart, ?ascending, ?each, hdecoded.first, hlast, ?run⟩
  case apart => exact hordered.imp And.right
  case ascending => exact hordered.imp fun ⟨hne, hle⟩ => hne.trans_le hle
  case each =>
    intro f hf
    have h := hdecoded.frags f hf
    exact ⟨h.nonempty, h.ends, h.inside, h.kind.imp_right And.right⟩
  case run =>
    intro before f g after heq
    exact (List.isChain_iff_forall_rel_of_append_cons_cons.1 hdecoded.order heq).2

/-- Settles O25: each byte was assembled, opened or recovered as the data bits of its cell. -/
theorem decodedBytesAreCells : Obligations.DecodedBytesAreCells := by
  unfold Obligations.DecodedBytesAreCells
  exact fun d raw f hf => ((decodeBits_inv d raw).1.frags f hf).cells

end Sys2Proof.Machine
end

section
/-! SUPPORT. The bits of a raw window, one by one (00_scope.md R7): where they stand in the stream, and the cell that
was appended to a stream as the window at its end. -/

namespace Sys2Proof.Machine

/-- The last of the bits is bit 0 of the cell. -/
theorem getLsbD_cellOfBits (bits : List Bool) {i : Nat} (hi : i < 16) :
    (cellOfBits bits).getLsbD i = bits.reverse.getD i false := by
  induction bits using List.reverseRecOn generalizing i with
  | nil => simp [cellOfBits]
  | append_singleton bits b ih =>
    rw [cellOfBits_concat, List.reverse_concat, BitVec.getLsbD_or, BitVec.getLsbD_shiftLeft,
      BitVec.getLsbD_setWidth]
    cases i with
    | zero => simp
    | succ i => simpa [hi] using ih (Nat.lt_of_succ_lt hi)

theorem cellBits_eq_map (w : Word16) : cellBits w = (List.range 16).reverse.map w.getLsbD := rfl

@[simp] theorem length_cellBits (w : Word16) : (cellBits w).length = 16 := rfl

@[simp] theorem cellOfBits_cellBits (w : Word16) : cellOfBits (cellBits w) = w := by
  refine BitVec.eq_of_getLsbD_eq fun i hi => ?_
  rw [getLsbD_cellOfBits _ hi, cellBits_eq_map, ← List.map_reverse, List.reverse_reverse]
  simp [hi]

/-- A cell is its clock and data bits by turns, clock first. -/
theorem cellBits_interleave (c d : Byte) :
    cellBits (interleave c d) = [7, 6, 5, 4, 3, 2, 1, 0].flatMap fun k => [c.getLsbD k, d.getLsbD k] := by
  have hpairs (w : Word16) : cellBits w =
      [7, 6, 5, 4, 3, 2, 1, 0].flatMap fun k => [w.getLsbD (2 * k + 1), w.getLsbD (2 * k)] := rfl
  rw [hpairs]
  refine List.flatMap_congr fun k hk => ?_
  have hk : k < 8 := (by decide : ∀ k ∈ [7, 6, 5, 4, 3, 2, 1, 0], k < 8) k hk
  rw [getLsbD_interleave_clock _ _ hk, getLsbD_interleave_data _ _ hk]

/-- The bit `i` places after the start of a window. -/
theorem getElem?_eq_window {raw : List Bool} {x i : Nat} (hx : x + 16 ≤ raw.length) (hi : i < 16) :
    raw[x + i]? = some ((window raw x).getLsbD (15 - i)) := by
  have hlen : ((raw.drop x).take 16).length = 16 := by
    rw [List.length_take, List.length_drop]
    omega
  have hplace : 16 - 1 - (15 - i) = i := by omega
  have hbit : ((raw.drop x).take 16)[i]? = raw[x + i]? := by
    rw [List.getElem?_take_of_lt hi, List.getElem?_drop]
  rw [window, getLsbD_cellOfBits _ (by omega), List.getD_eq_getElem?_getD,
    List.getElem?_reverse (by omega), hlen, hplace, hbit, List.getElem?_eq_getElem (by omega),
    Option.getD_some]

/-- What a stream goes on with does not change the windows before it. -/
theorem window_of_prefix {raw longer : List Bool} (h : raw <+: longer) {x : Nat} (hx : x + 16 ≤ raw.length) :
    window longer x = window raw x := by
  obtain ⟨more, rfl⟩ := h
  rw [window_eq_cellOfBits_take hx, window_eq_cellOfBits_take (by rw [List.length_append]; omega),
    List.take_append_of_le_length hx]

/-- The cell appended to a stream is the window at the end of that stream. -/
theorem window_append_cellBits (out : List Bool) (w : Word16) : window (out ++ cellBits w) out.length = w := by
  rw [window, List.drop_left, List.take_of_length_le (length_cellBits w).le, cellOfBits_cellBits]

end Sys2Proof.Machine
end

section
/-! SUPPORT and proofs about the encoder (44_fm_mfm_encoder.md R160 to R169). A byte is emitted as one cell, in both
formats; only the clock byte of that cell depends on the format, on the fragment and on the bit before. What the
encoder has emitted stays as it goes on, so a fact about a fragment or a gap is proved of the list that ends there. -/

namespace Sys2Proof.Machine

/-! ### One byte (R164 to R166) -/

/-- The clock byte of a data byte for which the fragment gives none: all ones in FM; in MFM the clock bit `k` is
`MfmClock` of the data bits `k + 1` and `k`, the bit emitted last standing above bit 7 (R166). -/
def computedClock (d : Density) (prev : Bool) (b : Byte) : Byte :=
  match d with
  | .fm => 0xFF#8
  | .mfm => ~~~((BitVec.ofBool prev ++ b).extractLsb' 1 8 ||| b)

/-- The clock byte a data byte is emitted with (R164, R165). -/
def emittedClock (d : Density) (given : Option Byte) (prev : Bool) (b : Byte) : Byte :=
  given.getD (computedClock d prev b)

theorem getLsbD_computedClock_mfm (prev : Bool) (b : Byte) {k : Nat} (hk : k < 8) :
    (computedClock .mfm prev b).getLsbD k =
      mfmClock (if k = 7 then prev else b.getLsbD (k + 1)) (b.getLsbD k) := by
  have habove : (BitVec.ofBool prev ++ b).getLsbD (1 + k) = if k = 7 then prev else b.getLsbD (k + 1) := by
    rw [BitVec.getLsbD_append, Nat.add_comm]
    rcases Nat.lt_or_eq_of_le (Nat.le_of_lt_succ hk) with hlt | rfl
    · rw [if_pos (by omega), if_neg hlt.ne]
    · simp
  rw [computedClock, BitVec.getLsbD_not, BitVec.getLsbD_or, BitVec.getLsbD_extractLsb', habove, mfmClock]
  simp only [hk, decide_true, Bool.true_and, Bool.not_or]

@[simp] theorem prevBit_append_pair (out : List Bool) (c b : Bool) : prevBit (out ++ [c, b]) = b := by
  simp [prevBit, List.getLastD_eq_getLast?]

theorem prevBit_eq (out : List Bool) :
    prevBit out = (decide (0 < out.length) && out.getD (out.length - 1) false) := by
  rcases List.eq_nil_or_concat' out with rfl | ⟨out, b, rfl⟩
  · rfl
  · simp [prevBit, List.getLastD_eq_getLast?]

/-- A byte is emitted as one cell. -/
theorem emitByte_eq (d : Density) (out : List Bool) (given : Option Byte) (b : Byte) :
    emitByte d out given b = out ++ cellBits (interleave (emittedClock d given (prevBit out) b) b) := by
  cases d with
  | fm => rfl
  | mfm =>
    rw [cellBits_interleave]
    cases given with
    | some c => simp [emitByte, emitMfm, emittedClock]
    | none =>
      have hclock {k : Nat} (hk : k < 8) := getLsbD_computedClock_mfm (prevBit out) b hk
      simp only [emitByte, emitMfm, List.foldl_cons, List.foldl_nil, prevBit_append_pair]
      simp [emittedClock, hclock, -BitVec.getLsbD_eq_getElem]

/-! ### The bytes of a fragment (R161) -/

/-- Bytes emitted one after another, the first with the clock that is given. -/
def emitBytes (d : Density) (out : List Bool) (given : Option Byte) : List Byte → List Bool
  | [] => out
  | b :: rest => emitBytes d (emitByte d out given b) none rest

theorem emitFragment_eq (d : Density) (out : List Bool) (f : Fragment) :
    emitFragment d out f = emitBytes d out (explicitClock f) f.byteData := by
  have hrest (rest : List Byte) (acc : List Bool) :
      rest.foldl (fun acc x => emitByte d acc none x) acc = emitBytes d acc none rest := by
    induction rest generalizing acc with
    | nil => rfl
    | cons b rest ih => exact ih _
  unfold emitFragment
  cases f.byteData with
  | nil => rfl
  | cons b rest => exact hrest rest _

theorem prefix_emitByte (d : Density) (out : List Bool) (given : Option Byte) (b : Byte) :
    out <+: emitByte d out given b := by
  rw [emitByte_eq]
  exact List.prefix_append ..

theorem prefix_emitBytes (d : Density) (out : List Bool) (given : Option Byte) (bytes : List Byte) :
    out <+: emitBytes d out given bytes := by
  induction bytes generalizing out given with
  | nil => exact List.prefix_rfl
  | cons b rest ih => exact (prefix_emitByte d out given b).trans (ih _ _)

@[simp] theorem length_emitByte (d : Density) (out : List Bool) (given : Option Byte) (b : Byte) :
    (emitByte d out given b).length = out.length + 16 := by
  rw [emitByte_eq, List.length_append, length_cellBits]

@[simp] theorem length_emitBytes (d : Density) (out : List Bool) (given : Option Byte) (bytes : List Byte) :
    (emitBytes d out given bytes).length = out.length + 16 * bytes.length := by
  induction bytes generalizing out given with
  | nil => rfl
  | cons b rest ih =>
    rw [emitBytes, ih, length_emitByte, List.length_cons]
    omega

/-- The stream `out` holds the bytes from `start` on, one cell each, the first with the clock that is given. -/
structure HoldsBytes (d : Density) (out : List Bool) (start : Nat) (given : Option Byte) (bytes : List Byte) :
    Prop where
  inside : start + 16 * bytes.length ≤ out.length
  cell : ∀ (k : Nat) (b : Byte), bytes[k]? = some b → window out (start + 16 * k) =
    interleave (emittedClock d (if k = 0 then given else none) (prevBit (out.take (start + 16 * k))) b) b

theorem HoldsBytes.of_prefix {d : Density} {out longer : List Bool} {start : Nat} {given : Option Byte}
    {bytes : List Byte} (h : HoldsBytes d out start given bytes) (hlonger : out <+: longer) :
    HoldsBytes d longer start given bytes where
  inside := h.inside.trans hlonger.length_le
  cell k b hk := by
    have hroom : start + 16 * k + 16 ≤ out.length := by
      have := (List.getElem?_eq_some_iff.1 hk).1
      have := h.inside
      omega
    have htake : longer.take (start + 16 * k) = out.take (start + 16 * k) := by
      obtain ⟨more, rfl⟩ := hlonger
      rw [List.take_append_of_le_length (by omega)]
    rw [window_of_prefix hlonger hroom, h.cell k b hk, htake]

theorem holdsBytes_emitBytes (d : Density) (out : List Bool) (given : Option Byte) (bytes : List Byte) :
    HoldsBytes d (emitBytes d out given bytes) out.length given bytes where
  inside := (length_emitBytes ..).ge
  cell k b hk := by
    induction bytes generalizing out given k with
    | nil => simp at hk
    | cons b' rest ih =>
      cases k with
      | zero =>
        obtain rfl : b' = b := by simpa using hk
        have htake : (emitBytes d out given (b' :: rest)).take out.length = out :=
          (List.prefix_iff_eq_take.1 (prefix_emitBytes ..)).symm
        have hfirst : window (emitBytes d out given (b' :: rest)) out.length =
            window (emitByte d out given b') out.length :=
          window_of_prefix (prefix_emitBytes ..) (length_emitByte ..).ge
        rw [Nat.mul_zero, Nat.add_zero, htake, hfirst, emitByte_eq, window_append_cellBits, if_pos rfl]
      | succ k =>
        have hplace : out.length + 16 * (k + 1) = (emitByte d out given b').length + 16 * k := by
          rw [length_emitByte]
          omega
        have hnone : (if k = 0 then none else none : Option Byte) = none := ite_self _
        rw [hplace, if_neg k.succ_ne_zero, emitBytes]
        simpa only [hnone] using ih (emitByte d out given b') none k (by simpa using hk)

/-! ### Fillers (R162, R163) -/

theorem prefix_fillGap (st : EncoderState) (start : Nat) : st.out <+: fillGap st start := List.prefix_append ..

theorem length_fillGap {st : EncoderState} {start : Nat} (h : st.out.length ≤ start) :
    (fillGap st start).length = start := by
  rw [fillGap, List.length_append, List.length_map, List.length_range]
  omega

theorem getElem?_fillGap {st : EncoderState} {start p : Nat} (hout : st.out.length ≤ p) (hp : p < start) :
    (fillGap st start)[p]? = some (fillerBit st.prevEnd start p) := by
  have hplace : st.out.length + (p - st.out.length) = p := by omega
  rw [fillGap, List.getElem?_append_right hout, List.getElem?_map, List.getElem?_range (by omega),
    Option.map_some, hplace]

/-! ### What `Encode` admits (R169) -/

/-- One fragment that `Encode` admits (R169 (a), (d)). -/
structure EncodableFragment (f : Fragment) : Prop where
  nonempty : 1 ≤ f.byteData.length
  ends : f.bitOffsetEnd = f.bitOffsetStart + 16 * f.byteData.length
  clock_ge : -1 ≤ f.clock
  clock_le : f.clock ≤ 255

theorem fragmentOk_iff {f : Fragment} : fragmentOk f = true ↔ EncodableFragment f := by
  simp only [fragmentOk, Bool.and_eq_true, decide_eq_true_eq]
  exact ⟨fun ⟨⟨⟨h1, h2⟩, h3⟩, h4⟩ => ⟨h1, h2, h3, h4⟩, fun ⟨h1, h2, h3, h4⟩ => ⟨⟨⟨h1, h2⟩, h3⟩, h4⟩⟩

theorem EncodableFragment.start_add_sixteen_le {f : Fragment} (h : EncodableFragment f) :
    f.bitOffsetStart + 16 ≤ f.bitOffsetEnd := by
  have h1 := h.nonempty
  have h2 := h.ends
  omega

/-- The check against the end of the fragment before says the same as the order of all pairs. -/
theorem fragmentsFrom_iff {a : Nat} {l : List Fragment} :
    fragmentsFrom a l = true ↔ (∀ f ∈ l, EncodableFragment f) ∧ (∀ f ∈ l, a ≤ f.bitOffsetStart) ∧
      l.Pairwise (fun f g => f.bitOffsetEnd ≤ g.bitOffsetStart) := by
  induction l generalizing a with
  | nil => simp [fragmentsFrom]
  | cons f l ih =>
    simp only [fragmentsFrom, Bool.and_eq_true, decide_eq_true_eq, fragmentOk_iff, ih, List.forall_mem_cons,
      List.pairwise_cons]
    constructor
    · rintro ⟨⟨hf, ha⟩, hl, hafter, hpairs⟩
      have hend := hf.start_add_sixteen_le
      exact ⟨⟨hf, hl⟩, ⟨ha, fun g hg => by have := hafter g hg; omega⟩, hafter, hpairs⟩
    · rintro ⟨⟨hf, hl⟩, ⟨ha, -⟩, hafter, hpairs⟩
      exact ⟨⟨hf, ha⟩, hl, hafter, hpairs⟩

theorem encodable_iff {l : List Fragment} :
    encodable l = true ↔ (∀ f ∈ l, EncodableFragment f) ∧
      l.Pairwise (fun f g => f.bitOffsetEnd ≤ g.bitOffsetStart) := by
  rw [encodable, fragmentsFrom_iff]
  simp

theorem encodable_left {l l' : List Fragment} (h : encodable (l ++ l') = true) : encodable l = true := by
  obtain ⟨hall, hpairs⟩ := encodable_iff.1 h
  exact encodable_iff.2 ⟨fun f hf => hall f (List.mem_append_left _ hf), (List.pairwise_append.1 hpairs).1⟩

/-- Where the last fragment ends; 0 for the empty list (R160). -/
def lastEnd (l : List Fragment) : Nat := (l.getLast?.map Fragment.bitOffsetEnd).getD 0

@[simp] theorem lastEnd_nil : lastEnd [] = 0 := rfl

@[simp] theorem lastEnd_concat (l : List Fragment) (f : Fragment) : lastEnd (l ++ [f]) = f.bitOffsetEnd := by
  simp [lastEnd]

theorem lastEnd_le_start {l : List Fragment} {f : Fragment} (h : encodable (l ++ [f]) = true) :
    lastEnd l ≤ f.bitOffsetStart := by
  rcases List.eq_nil_or_concat' l with rfl | ⟨l, e, rfl⟩
  · exact Nat.zero_le _
  · rw [lastEnd_concat]
    exact (List.pairwise_append.1 (encodable_iff.1 h).2).2.2 e (by simp) f (by simp)

/-! ### The stream of a list (R160) -/

/-- The working state after a list of fragments. -/
def encodeState (d : Density) (l : List Fragment) : EncoderState := l.foldl (encodeFragment d) .start

theorem encodeState_out (d : Density) (l : List Fragment) : (encodeState d l).out = encodeFragments d l := rfl

theorem encodeState_prevEnd_concat (d : Density) (l : List Fragment) (f : Fragment) :
    (encodeState d (l ++ [f])).prevEnd = some (encodeFragments d (l ++ [f])).length := by
  simp only [encodeState, encodeFragments, List.foldl_concat, encodeFragment]

/-- The last fragment's bytes come after the filler before it. -/
theorem encodeFragments_concat (d : Density) (l : List Fragment) (f : Fragment) :
    encodeFragments d (l ++ [f]) =
      emitBytes d (fillGap (encodeState d l) f.bitOffsetStart) (explicitClock f) f.byteData := by
  rw [← emitFragment_eq, encodeFragments, List.foldl_concat]
  rfl

theorem prefix_encodeFragments_concat (d : Density) (l : List Fragment) (f : Fragment) :
    fillGap (encodeState d l) f.bitOffsetStart <+: encodeFragments d (l ++ [f]) := by
  rw [encodeFragments_concat]
  exact prefix_emitBytes ..

/-- What the encoder has emitted stays. -/
theorem prefix_encodeFragments_append (d : Density) (l l' : List Fragment) :
    encodeFragments d l <+: encodeFragments d (l ++ l') := by
  induction l' using List.reverseRecOn with
  | nil => rw [List.append_nil]
  | append_singleton l' f ih =>
    rw [← List.append_assoc]
    exact (ih.trans (prefix_fillGap ..)).trans (prefix_encodeFragments_concat ..)

theorem prefix_encodeFragments_cons (d : Density) (before after : List Fragment) (f : Fragment) :
    encodeFragments d (before ++ [f]) <+: encodeFragments d (before ++ f :: after) := by
  have := prefix_encodeFragments_append d (before ++ [f]) after
  rwa [List.append_assoc] at this

/-- The stream ends where the last fragment ends (R160). -/
theorem length_encodeFragments {d : Density} {l : List Fragment} (h : encodable l = true) :
    (encodeFragments d l).length = lastEnd l := by
  induction l using List.reverseRecOn with
  | nil => rfl
  | append_singleton l f ih =>
    have hroom : (encodeState d l).out.length ≤ f.bitOffsetStart := by
      rw [encodeState_out, ih (encodable_left h)]
      exact lastEnd_le_start h
    have hf := (encodable_iff.1 h).1 f (by simp)
    rw [encodeFragments_concat, length_emitBytes, length_fillGap hroom, lastEnd_concat, hf.ends]

/-- The stream so far leaves room for the filler before the next fragment. -/
theorem length_encodeState_le {d : Density} {l : List Fragment} {f : Fragment} (h : encodable (l ++ [f]) = true) :
    (encodeState d l).out.length ≤ f.bitOffsetStart := by
  rw [encodeState_out, length_encodeFragments (encodable_left h)]
  exact lastEnd_le_start h

/-- Every fragment's bytes stand at its place, one cell each (R161). -/
theorem holdsBytes_encodeFragments {d : Density} {l : List Fragment} (h : encodable l = true) {f : Fragment}
    (hf : f ∈ l) : HoldsBytes d (encodeFragments d l) f.bitOffsetStart (explicitClock f) f.byteData := by
  obtain ⟨before, after, rfl⟩ := List.append_of_mem hf
  have hprefix : encodable (before ++ [f]) = true := encodable_left (l' := after) (by simpa using h)
  have hbytes := holdsBytes_emitBytes d (fillGap (encodeState d before) f.bitOffsetStart) (explicitClock f) f.byteData
  rw [length_fillGap (length_encodeState_le hprefix), ← encodeFragments_concat] at hbytes
  exact hbytes.of_prefix (prefix_encodeFragments_cons ..)

/-- Every bit before a fragment and after the one before it is filler. -/
theorem getElem?_filler {d : Density} {before after : List Fragment} {g : Fragment} {p : Nat}
    (h : encodable (before ++ g :: after) = true) (hp : lastEnd before ≤ p) (hlt : p < g.bitOffsetStart) :
    (encodeFragments d (before ++ g :: after))[p]? =
      some (fillerBit (encodeState d before).prevEnd g.bitOffsetStart p) := by
  have hprefix : encodable (before ++ [g]) = true := encodable_left (l' := after) (by simpa using h)
  have hout : (encodeState d before).out.length ≤ p := by
    rwa [encodeState_out, length_encodeFragments (encodable_left hprefix)]
  have hlen := length_fillGap (length_encodeState_le (d := d) hprefix)
  obtain ⟨more, hmore⟩ :=
    (prefix_encodeFragments_concat d before g).trans (prefix_encodeFragments_cons d before after g)
  rw [← hmore, List.getElem?_append_left (by omega), getElem?_fillGap hout hlt]

/-! ### The operation -/

theorem exec_encode_of_encodable {fmt : TrackFormat} {d : Density} (hd : fmt.density? = some d)
    {frags : List Fragment} (h : encodable frags = true) (s : State) :
    exec (.encode fmt frags) s = .next (reply (.raw (encodeFragments d frags)) s) := by
  change withDensity fmt _ = _
  rw [withDensity, hd, orRefuse_some, if_pos h]

theorem exec_encode_of_not_encodable {fmt : TrackFormat} {d : Density} (hd : fmt.density? = some d)
    {frags : List Fragment} (h : ¬encodable frags = true) (s : State) :
    exec (.encode fmt frags) s = .refused .badFragments := by
  change withDensity fmt _ = _
  rw [withDensity, hd, orRefuse_some, if_neg h]

theorem exec_encode_unknown (frags : List Fragment) (s : State) :
    exec (.encode .unknown frags) s = .refused .unknownFormat := rfl

theorem encodableFragment_iff {f : Fragment} :
    EncodableFragment f ↔ 1 ≤ f.byteData.length ∧
      f.bitOffsetEnd = f.bitOffsetStart + 16 * f.byteData.length ∧ -1 ≤ f.clock ∧ f.clock ≤ 255 :=
  ⟨fun ⟨h1, h2, h3, h4⟩ => ⟨h1, h2, h3, h4⟩, fun ⟨h1, h2, h3, h4⟩ => ⟨h1, h2, h3, h4⟩⟩

/-- Settles O26: the operation answers where its check of the list passes, and the check is the statement's
condition. -/
theorem encodeOperation : Obligations.EncodeOperation := by
  unfold Obligations.EncodeOperation
  refine ⟨fun s fmt d frags hd => ?_, fun s frags => exec_encode_unknown frags s⟩
  simp only [← encodableFragment_iff, ← encodable_iff]
  exact ⟨fun h => ⟨exec_encode_of_encodable hd h s, length_encodeFragments h⟩,
    fun h => exec_encode_of_not_encodable hd h s⟩

/-! ### The bits of the stream -/

section
variable {d : Density} {out : List Bool} {start : Nat} {given : Option Byte} {bytes : List Byte} {k j : Nat} {b : Byte}

theorem HoldsBytes.cell_inside (h : HoldsBytes d out start given bytes) (hk : bytes[k]? = some b) :
    start + 16 * k + 16 ≤ out.length := by
  have := (List.getElem?_eq_some_iff.1 hk).1
  have := h.inside
  omega

/-- The clock bits stand at the even places of a cell. -/
theorem HoldsBytes.clockBit (h : HoldsBytes d out start given bytes) (hk : bytes[k]? = some b) (hj : j < 8) :
    out[start + 16 * k + 2 * j]? = some ((emittedClock d (if k = 0 then given else none)
      (prevBit (out.take (start + 16 * k))) b).getLsbD (7 - j)) := by
  have hplace : 15 - 2 * j = 2 * (7 - j) + 1 := by omega
  rw [getElem?_eq_window (h.cell_inside hk) (by omega), h.cell k b hk, hplace,
    getLsbD_interleave_clock _ _ (by omega)]

/-- The data bits stand at the odd places of a cell. -/
theorem HoldsBytes.dataBit (h : HoldsBytes d out start given bytes) (hk : bytes[k]? = some b) (hj : j < 8) :
    out[start + 16 * k + 2 * j + 1]? = some (b.getLsbD (7 - j)) := by
  have hplace : 15 - (2 * j + 1) = 2 * (7 - j) := by omega
  rw [Nat.add_assoc, getElem?_eq_window (h.cell_inside hk) (by omega), h.cell k b hk, hplace,
    getLsbD_interleave_data _ _ (by omega)]

/-- Only the first byte has the clock that is given. -/
theorem given_eq_none (h : k ≠ 0 ∨ given = none) : (if k = 0 then given else none) = none := by
  split
  · next hzero => exact h.resolve_left (not_not_intro hzero)
  · rfl

/-- A computed MFM clock bit is `MfmClock` of the bits of the stream beside it (R166). -/
theorem HoldsBytes.mfmClockBit (h : HoldsBytes .mfm out start given bytes) (hk : bytes[k]? = some b)
    (hcomputed : k ≠ 0 ∨ given = none) (hj : j < 8) :
    let p := start + 16 * k + 2 * j
    out[p]? = some (mfmClock (decide (0 < p) && out.getD (p - 1) false) (out.getD (p + 1) false)) := by
  intro p
  have hroom := h.cell_inside hk
  have hdata : out.getD (p + 1) false = b.getLsbD (7 - j) := by
    rw [List.getD_eq_getElem?_getD, h.dataBit hk hj, Option.getD_some]
  have hprev : (decide (0 < p) && out.getD (p - 1) false) =
      if 7 - j = 7 then prevBit (out.take (start + 16 * k)) else b.getLsbD (7 - j + 1) := by
    rcases Nat.eq_zero_or_pos j with rfl | hpos
    · rw [if_pos rfl, prevBit_eq, List.length_take, Nat.min_eq_left (by omega)]
      rcases Nat.eq_zero_or_pos (start + 16 * k) with hzero | hpos
      · simp [p, hzero]
      · simp [p, List.getD_eq_getElem?_getD, List.getElem?_take_of_lt (Nat.sub_one_lt_of_lt hpos)]
    · have hplace : p - 1 = start + 16 * k + 2 * (j - 1) + 1 := by omega
      have hbit : 7 - (j - 1) = 7 - j + 1 := by omega
      rw [if_neg (by omega), hplace, List.getD_eq_getElem?_getD, h.dataBit hk (by omega), hbit,
        decide_eq_true (by omega), Bool.true_and, Option.getD_some]
  rw [h.clockBit hk hj, given_eq_none hcomputed, hdata, hprev]
  exact congrArg some (getLsbD_computedClock_mfm _ b (by omega))

end

theorem explicitClock_of_ne {f : Fragment} (h : f.clock ≠ -1) : explicitClock f = some (BitVec.ofInt 8 f.clock) :=
  if_neg h

theorem explicitClock_of_eq {f : Fragment} (h : f.clock = -1) : explicitClock f = none := if_pos h

/-- Settles O27: the cells are those the encoder placed, and the bits outside them its fillers. -/
theorem encodedCells : Obligations.EncodedCells := by
  unfold Obligations.EncodedCells
  intro d frags henc out
  refine ⟨fun f k b hf hk => ?cell, fun f p hf hp => ?lead, fun before after f g p hfrags hfp hpg => ?gap⟩
  case cell =>
    have hbytes := holdsBytes_encodeFragments (d := d) henc hf
    intro at_ cell
    have hcell : cell = _ := hbytes.cell k b hk
    refine ⟨by rw [hcell, dataOf_interleave], fun hzero hclock => ?given, fun hcomputed => ?computed⟩
    case given => rw [hcell, clockOf_interleave, if_pos hzero, explicitClock_of_ne hclock]; rfl
    case computed =>
      have hnone : k ≠ 0 ∨ explicitClock f = none := hcomputed.imp_right explicitClock_of_eq
      cases d with
      | fm =>
        change clockOf cell = 0xFF#8
        rw [hcell, clockOf_interleave, given_eq_none hnone]
        rfl
      | mfm => exact fun j hj => hbytes.mfmClockBit hk hnone hj
  case lead =>
    obtain ⟨after, rfl⟩ : ∃ after, frags = f :: after := List.head?_eq_some_iff.1 hf
    exact getElem?_filler (before := []) henc (Nat.zero_le p) hp
  case gap =>
    subst hfrags
    have hsplit : before ++ f :: g :: after = (before ++ [f]) ++ g :: after := by simp
    have hlen : (encodeFragments d (before ++ [f])).length = f.bitOffsetEnd := by
      rw [length_encodeFragments (encodable_left (hsplit ▸ henc)), lastEnd_concat]
    have hfill := getElem?_filler (d := d) (hsplit ▸ henc) ((lastEnd_concat ..).trans_le hfp) hpg
    rw [encodeState_prevEnd_concat, hlen, ← hsplit] at hfill
    exact hfill

end Sys2Proof.Machine
end

section
/-! SUPPORT and proof of the codec's round trip (44_fm_mfm_encoder.md R170). Between the reports of two neighbours of
the list the decoder reads the first of the two: it holds the fragments before it unchanged and one that starts where
it starts, open until its clock is lost, and not shorter once its bytes have passed. The report at the next fragment
trims that one to the bytes of the list (43_fm_mfm_decoder.md R148). In the lead the decoder holds nothing, or one
byte that the first report trims away. -/

namespace Sys2Proof.Machine

/-! ### A decode bit by bit -/

/-- The decoder after `n` bits. -/
def stateAfter (d : Density) (raw : List Bool) (n : Nat) : DecoderState :=
  (raw.take n).foldl (decodeBit d raw) .start

/-- The decoder within the bit time after `n` bits, before the sync test (R143). -/
def assembledAfter (d : Density) (raw : List Bool) (n : Nat) : DecoderState :=
  assemble d (shiftIn (stateAfter d raw n) (raw.getD n false))

section
variable {d : Density} {raw : List Bool} {n x : Nat} {st : DecoderState}

theorem decodeBits_eq_allFragments (d : Density) (raw : List Bool) :
    decodeBits d raw = allFragments (stateAfter d raw raw.length) := by
  rw [decodeBits, closeOpen_frags, stateAfter, List.take_length]

theorem stateAfter_inv (hn : n ≤ raw.length) :
    RegisterInv raw n (stateAfter d raw n) ∧ FragmentInv d raw n (stateAfter d raw n) := decode_take_inv hn

theorem shifted_reg (hx : x + 16 ≤ raw.length) :
    RegisterInv raw (x + 16) (shiftIn (stateAfter d raw (x + 15)) (raw.getD (x + 15) false)) := by
  have hget : raw.getD (x + 15) false = raw[x + 15] := List.getD_eq_getElem raw false hx
  rw [hget]
  exact (stateAfter_inv (Nat.le_of_succ_le hx)).1.after_shiftIn hx

theorem assembledAfter_inv (hx : x + 16 ≤ raw.length) :
    RegisterInv raw (x + 16) (assembledAfter d raw (x + 15)) ∧
      FragmentInv d raw (x + 16) (assembledAfter d raw (x + 15)) := by
  obtain ⟨-, hfrag⟩ := stateAfter_inv (d := d) (Nat.le_of_succ_le hx)
  have hreg := shifted_reg (d := d) hx
  have hshifted : FragmentInv d raw (x + 15) (shiftIn (stateAfter d raw (x + 15)) (raw.getD (x + 15) false)) :=
    ⟨hfrag.framed, hfrag.decoded, hfrag.last⟩
  exact ⟨hreg.after_assemble, hshifted.after_assemble hreg hx⟩

/-- The sync test asks about the window that ends at the bit just read. -/
theorem stateAfter_eq (hx : x + 16 ≤ raw.length) :
    stateAfter d raw (x + 16) =
      match syncTest d (window raw x) 16 (assembledAfter d raw (x + 15)).cur.isNone
        (assembledAfter d raw (x + 15)).cell with
      | some m => onSync raw m (assembledAfter d raw (x + 15))
      | none => assembledAfter d raw (x + 15) := by
  have hget : raw.getD (x + 15) false = raw[x + 15] := List.getD_eq_getElem raw false hx
  have hstep : stateAfter d raw (x + 16) = decodeBit d raw (stateAfter d raw (x + 15)) (raw.getD (x + 15) false) := by
    rw [hget, stateAfter, List.take_add_one (i := x + 15), List.getElem?_eq_getElem hx, Option.toList_some,
      List.foldl_concat]
    rfl
  obtain ⟨hreg, -⟩ := assembledAfter_inv (d := d) hx
  have hfilled : (assembledAfter d raw (x + 15)).filled = 16 := hreg.filled.trans (by omega)
  rw [hstep, ← hreg.reg_eq_window hx, ← hfilled]
  rfl

theorem stateAfter_of_silence (hx : x + 16 ≤ raw.length)
    (h : syncTest d (window raw x) 16 (assembledAfter d raw (x + 15)).cur.isNone
      (assembledAfter d raw (x + 15)).cell = none) : stateAfter d raw (x + 16) = assembledAfter d raw (x + 15) := by
  rw [stateAfter_eq hx, h]

/-- A report closes, trims, recovers and opens (R146 to R149). -/
theorem stateAfter_of_report {m : Byte × Byte} (hx : x + 16 ≤ raw.length)
    (h : syncTest d (window raw x) 16 (assembledAfter d raw (x + 15)).cur.isNone
      (assembledAfter d raw (x + 15)).cell = some m) :
    (stateAfter d raw (x + 16)).cur = some (markFragment x m) ∧
      (stateAfter d raw (x + 16)).frags = recover raw x (trim x (allFragments (assembledAfter d raw (x + 15)))) ∧
      (stateAfter d raw (x + 16)).cell = 0 := by
  obtain ⟨hreg, -⟩ := assembledAfter_inv (d := d) hx
  rw [stateAfter_eq hx, h]
  refine ⟨?_, ?_, rfl⟩
  · simp [onSync, markFragment, hreg.pos]
  · simp [onSync, hreg.pos, closeOpen_frags]

/-! ### The second part of a bit time (R143 to R145) -/

theorem assemble_of_hunting (hcur : st.cur = none) : assemble d st = st := by rw [assemble, hcur]

theorem assemble_of_lost {e : Fragment} (hcur : st.cur = some e) (hlost : lostClock d st.reg (st.cell + 1) = true) :
    (assemble d st).cur = none ∧ (assemble d st).frags = st.frags ++ [e] := by
  simp [assemble, closeOpen, hcur, hlost]

theorem assemble_of_kept {e : Fragment} (hcur : st.cur = some e) (hkept : lostClock d st.reg (st.cell + 1) = false)
    (hcell : st.cell < 16) :
    ∃ e', (assemble d st).cur = some e' ∧ e'.bitOffsetStart = e.bitOffsetStart ∧ e'.clock = e.clock ∧
      (assemble d st).frags = st.frags ∧ (assemble d st).cell = (st.cell + 1) % 16 := by
  by_cases hlast : st.cell + 1 = 16
  · rw [hlast] at hkept
    simp [assemble, hcur, hkept, hlast]
  · have hmod : (st.cell + 1) % 16 = st.cell + 1 := Nat.mod_eq_of_lt (by omega)
    simp [assemble, hcur, hkept, hlast, hmod]

/-- A bit time leaves the fragments as they are, or adds a byte to the open one. -/
theorem allFragments_assemble (d : Density) (st : DecoderState) :
    allFragments (assemble d st) = allFragments st ∨ ∃ e, st.cur = some e ∧ st.cell + 1 = 16 := by
  rcases assemble_cases d st with ⟨-, heq⟩ | ⟨e, hcur, heq | ⟨hcell, -⟩ | heq⟩
  · exact .inl (congrArg allFragments heq)
  · exact .inl (by simp [heq, allFragments, hcur])
  · exact .inr ⟨e, hcur, hcell⟩
  · exact .inl (by simp [heq, allFragments])

end

/-! ### Recognised marks (30_encoding.md R76, R77) -/

/-- The mark cell of a recognised mark is reported: in FM and for 0xA1 at any phase, for 0xC2 while hunting or at an
even one (42_sync_detector.md R126, R128). -/
theorem syncTest_markCell {d : Density} {c : Int} {b : Byte} (h : (c, b) ∈ marksOf d) {hunting : Bool} {cell : Nat}
    (hphase : d = .fm ∨ b = 0xA1#8 ∨ hunting = true ∨ cell % 2 = 0) :
    syncTest d (interleave (BitVec.ofInt 8 c) b) 16 hunting cell = some (BitVec.ofInt 8 c, b) := by
  cases d with
  | fm =>
    have hall : ∀ m ∈ marksOf .fm,
        syncTestFm (interleave (BitVec.ofInt 8 m.1) m.2) 16 true 0 = some (BitVec.ofInt 8 m.1, m.2) := by decide
    have hany (reg : Word16) : syncTest .fm reg 16 hunting cell = syncTestFm reg 16 true 0 := rfl
    rw [hany]
    exact hall (c, b) h
  | mfm =>
    have hmarks : (c = 0x0A ∧ b = 0xA1#8) ∨ (c = 0x14 ∧ b = 0xC2#8) := by simpa [marksOf] using h
    rw [syncTest, syncTestMfm, if_neg (by decide)]
    rcases hmarks with ⟨rfl, rfl⟩ | ⟨rfl, rfl⟩
    · exact if_pos (by decide)
    · have hphase : hunting = true ∨ cell % 2 = 0 := by simpa using hphase
      rw [if_neg (by decide)]
      exact if_pos ⟨by decide, hphase⟩

theorem toNat_ofInt_of_mem_marksOf {d : Density} {c : Int} {b : Byte} (h : (c, b) ∈ marksOf d) :
    ((BitVec.ofInt 8 c).toNat : Int) = c := by
  have hall : ∀ m ∈ marksOf d, ((BitVec.ofInt 8 m.1).toNat : Int) = m.1 := by cases d <;> decide
  exact hall _ h

theorem ne_neg_one_of_mem_marksOf {d : Density} {c : Int} {b : Byte} (h : (c, b) ∈ marksOf d) : c ≠ -1 := by
  have := toNat_ofInt_of_mem_marksOf h
  omega

/-- While hunting the phase is not asked for. -/
theorem syncTest_hunting_cell (d : Density) (reg : Word16) (filled cell : Nat) :
    syncTest d reg filled true cell = syncTest d reg filled true 0 := by
  cases d with
  | fm => rfl
  | mfm => simp [syncTest, syncTestMfm]

/-! ### The clock of an encoded fragment (42_sync_detector.md R132, R133) -/

theorem getLsbD_window {raw : List Bool} {x i : Nat} (hx : x + 16 ≤ raw.length) (hi : i < 16) :
    (window raw x).getLsbD i = raw.getD (x + (15 - i)) false := by
  have hplace : 15 - (15 - i) = i := by omega
  rw [List.getD_eq_getElem?_getD, getElem?_eq_window hx (by omega), hplace, Option.getD_some]

/-- No clock is lost inside the bytes of a fragment. -/
theorem HoldsBytes.lostClock_eq_false {d : Density} {out : List Bool} {start : Nat} {given : Option Byte}
    {bytes : List Byte} (h : HoldsBytes d out start given bytes) {i : Nat} (hi : i + 17 ≤ 16 * bytes.length) :
    lostClock d (window out (start + 1 + i)) (i % 16 + 1) = false := by
  have hroom : start + 1 + i + 16 ≤ out.length := by
    have := h.inside
    omega
  have hbyte : bytes[i / 16 + 1]? = some bytes[i / 16 + 1] := List.getElem?_eq_getElem (by omega)
  have hj : i % 16 / 2 < 8 := by omega
  cases d with
  | fm =>
    rw [lostClock, lostClockFm_eq, getLsbD_window hroom (by omega)]
    refine decide_eq_false fun ⟨hodd, hbit⟩ => ?_
    have hplace : start + 1 + i + (15 - 0) = start + 16 * (i / 16 + 1) + 2 * (i % 16 / 2) := by omega
    rw [hplace, List.getD_eq_getElem?_getD, h.clockBit hbyte hj, given_eq_none (.inl (Nat.succ_ne_zero _))] at hbit
    have hones : ∀ k < 8, (0xFF#8).getLsbD (7 - k) = true := by decide
    exact absurd ((hones _ hj).symm.trans hbit) (by decide)
  | mfm =>
    rw [lostClock, lostClockMfm_eq, getLsbD_window hroom (by omega), getLsbD_window hroom (by omega),
      getLsbD_window hroom (by omega)]
    refine decide_eq_false fun ⟨heven, hbit⟩ => hbit ?_
    have hplace : start + 1 + i + (15 - 1) = start + 16 * (i / 16 + 1) + 2 * (i % 16 / 2) := by omega
    have hbefore : start + 1 + i + (15 - 2) = start + 16 * (i / 16 + 1) + 2 * (i % 16 / 2) - 1 := by omega
    have hafter : start + 1 + i + (15 - 0) = start + 16 * (i / 16 + 1) + 2 * (i % 16 / 2) + 1 := by omega
    rw [hplace, hbefore, hafter, List.getD_eq_getElem?_getD,
      h.mfmClockBit hbyte (.inl (Nat.succ_ne_zero _)) hj, decide_eq_true (by omega), Bool.true_and]
    rfl

section
variable {d : Density} {raw : List Bool} {f : Fragment} {x n : Nat}

theorem clockLostBy_opened (d : Density) (raw : List Bool) (f : Fragment) :
    clockLostBy d raw f (f.bitOffsetStart + 16) = false := by simp [clockLostBy]

/-- A clock is lost in one more bit time where it was lost before, or is lost in the window that ends there. -/
theorem clockLostBy_succ (hx : f.bitOffsetStart < x) :
    clockLostBy d raw f (x + 16) = (clockLostBy d raw f (x + 15) ||
      lostClock d (window raw x) ((x + 15 - f.bitOffsetStart) % 16 + 1)) := by
  obtain ⟨k, rfl⟩ : ∃ k, x = f.bitOffsetStart + 1 + k := ⟨x - (f.bitOffsetStart + 1), by omega⟩
  have hnow : f.bitOffsetStart + 1 + k + 16 - (f.bitOffsetStart + 16) = k + 1 := by omega
  have hbefore : f.bitOffsetStart + 1 + k + 15 - (f.bitOffsetStart + 16) = k := by omega
  have hcell : (f.bitOffsetStart + 1 + k + 15 - f.bitOffsetStart) % 16 = k % 16 := by omega
  simp only [clockLostBy, hnow, hbefore, hcell, List.range_succ, List.any_append, List.any_cons, List.any_nil,
    Bool.or_false]

/-- A fragment keeps its clock as long as its bytes last. -/
theorem clockLostBy_eq_false {given : Option Byte} (h : HoldsBytes d raw f.bitOffsetStart given f.byteData)
    (hn : n ≤ f.bitOffsetStart + 16 * f.byteData.length) : clockLostBy d raw f n = false := by
  rw [clockLostBy, List.any_eq_false]
  intro k hk
  have hk : k < n - (f.bitOffsetStart + 16) := List.mem_range.1 hk
  rw [h.lostClock_eq_false (by omega)]
  exact Bool.false_ne_true

end

/-! ### Reading one fragment of the list -/

/-- After `n` bits the decoder has the fragments `before` and reads `f`: what starts where `f` starts is open, in the
phase of its first cell, or was closed when its clock was lost, no shorter than `f`. -/
inductive Reading (d : Density) (raw : List Bool) (before : List Fragment) (f : Fragment) (n : Nat)
    (st : DecoderState) : Prop
  | opened (e : Fragment) (cur : st.cur = some e) (frags : st.frags = before)
      (start : e.bitOffsetStart = f.bitOffsetStart) (clock : e.clock = f.clock)
      (cell : st.cell = (n - f.bitOffsetStart) % 16) (kept : clockLostBy d raw f n = false)
  | closed (e : Fragment) (cur : st.cur = none) (frags : st.frags = before ++ [e])
      (start : e.bitOffsetStart = f.bitOffsetStart) (clock : e.clock = f.clock)
      (ends : f.bitOffsetEnd ≤ e.bitOffsetEnd) (lost : clockLostBy d raw f n = true)

section
variable {d : Density} {raw : List Bool} {before : List Fragment} {e f : Fragment} {n x : Nat} {st : DecoderState}

/-- The fragment that is read, once the bytes of `f` have passed. -/
theorem Reading.last (h : Reading d raw before f n st) (hinv : FragmentInv d raw n st)
    (hends : f.bitOffsetEnd = f.bitOffsetStart + 16 * f.byteData.length) (hn : f.bitOffsetEnd ≤ n) :
    ∃ e, allFragments st = before ++ [e] ∧ e.bitOffsetStart = f.bitOffsetStart ∧ e.clock = f.clock ∧
      f.bitOffsetEnd ≤ e.bitOffsetEnd := by
  cases h with
  | opened e hcur hfrags hstart hclock hcell _ =>
    refine ⟨e, by simp [allFragments, hcur, hfrags], hstart, hclock, ?_⟩
    have hframed := hinv.framed e hcur
    omega
  | closed e hcur hfrags hstart hclock hle _ =>
    exact ⟨e, by simp [allFragments, hcur, hfrags], hstart, hclock, hle⟩

/-- The second part of a bit time goes on reading, where a clock is lost only after the bytes of the fragment. -/
theorem Reading.after_assemble (h : Reading d raw before f (x + 15) st) (hinv : FragmentInv d raw (x + 15) st)
    {bit : Bool} (hreg : RegisterInv raw (x + 16) (shiftIn st bit)) (hroom : x + 16 ≤ raw.length)
    (hx : f.bitOffsetStart < x) (hends : f.bitOffsetEnd = f.bitOffsetStart + 16 * f.byteData.length)
    (hkeeps : x + 16 ≤ f.bitOffsetEnd → clockLostBy d raw f (x + 16) = false) :
    Reading d raw before f (x + 16) (assemble d (shiftIn st bit)) := by
  have hsucc := clockLostBy_succ (d := d) (raw := raw) hx
  cases h with
  | closed e hcur hfrags hstart hclock hle hlost =>
    rw [assemble_of_hunting (st := shiftIn st bit) hcur]
    exact .closed e hcur hfrags hstart hclock hle (by rw [hsucc, hlost, Bool.true_or])
  | opened e hcur hfrags hstart hclock hcell hkept =>
    have hwindow : lostClock d (window raw x) (st.cell + 1) = clockLostBy d raw f (x + 16) := by
      rw [hsucc, hkept, Bool.false_or, hcell]
    rw [← hreg.reg_eq_window hroom] at hwindow
    cases hclk : clockLostBy d raw f (x + 16) with
    | false =>
      obtain ⟨e', hcur', hstart', hclock', hfrags', hcell'⟩ :=
        assemble_of_kept (st := shiftIn st bit) hcur (hwindow.trans hclk) (by change st.cell < 16; omega)
      refine .opened e' hcur' (hfrags'.trans hfrags) (hstart'.trans hstart) (hclock'.trans hclock) ?_ hclk
      rw [hcell']
      change (st.cell + 1) % 16 = _
      omega
    | true =>
      obtain ⟨hcur', hfrags'⟩ := assemble_of_lost (st := shiftIn st bit) hcur (hwindow.trans hclk)
      refine .closed e hcur' (by rw [hfrags']; exact congrArg (· ++ [e]) hfrags) hstart hclock ?_ hclk
      have hframed := hinv.framed e hcur
      have hafter : f.bitOffsetEnd < x + 16 := by
        by_contra hin
        rw [hkeeps (Nat.le_of_not_lt hin)] at hclk
        cases hclk
      omega

/-- A fragment of the decoder, cut to the bytes of a fragment of the list that starts where it starts. -/
theorem DecodedFragment.keepBytes_eq (he : DecodedFragment d raw n e) (hstart : e.bitOffsetStart = f.bitOffsetStart)
    (hclock : e.clock = f.clock) (hends : f.bitOffsetEnd = f.bitOffsetStart + 16 * f.byteData.length)
    (hle : f.bitOffsetEnd ≤ e.bitOffsetEnd)
    (hcells : ∀ k b, f.byteData[k]? = some b → dataOf (window raw (f.bitOffsetStart + 16 * k)) = b) :
    keepBytes f.byteData.length e = f := by
  have hlen : f.byteData.length ≤ e.byteData.length := by
    have := he.ends
    omega
  have hbytes : e.byteData.take f.byteData.length = f.byteData := by
    refine List.ext_getElem (by rw [List.length_take, Nat.min_eq_left hlen]) fun k hk hkf => ?_
    have hcell := he.cells k _ (List.getElem?_eq_getElem (by omega))
    rw [List.getElem_take, hcell, hstart]
    exact hcells k _ (List.getElem?_eq_getElem hkf)
  rw [keepBytes, hbytes, hclock, hstart, ← hends]

/-- Trimming drops the one byte that may have been read after the bytes of `f`. -/
theorem trim_concat_eq_keepBytes (he : e.bitOffsetEnd = e.bitOffsetStart + 16 * e.byteData.length) {k : Nat}
    (hk : 1 ≤ k) (hkx : e.bitOffsetStart + 16 * k ≤ x) (hxk : x < e.bitOffsetStart + 16 * k + 16)
    (hke : k ≤ e.byteData.length) (hex : e.bitOffsetEnd ≤ x + 16) :
    trim x (before ++ [e]) = before ++ [keepBytes k e] := by
  rw [trim, List.reverse_concat, trimReversed]
  rcases Nat.eq_or_lt_of_le hke with rfl | hlt
  · rw [if_pos (by omega), keepBytes_all he, List.reverse_cons, List.reverse_reverse]
  · have hone : e.byteData.length = k + 1 := by omega
    rw [if_neg (by omega), hone, popBytes_succ hone (hone ▸ he), if_neg (by omega), if_neg (by omega)]
    exact (List.reverse_cons ..).trans (by rw [List.reverse_reverse])

/-- A fragment of one byte that ends after the new sync point is dropped. -/
theorem trim_singleton_eq_nil (hlen : e.byteData.length = 1) (hend : x < e.bitOffsetEnd) : trim x [e] = [] := by
  have hpop : popBytes x 1 e = none := by
    have hempty : e.byteData.dropLast = [] := List.eq_nil_of_length_eq_zero (by rw [List.length_dropLast, hlen])
    rw [popBytes, if_pos hempty]
  change (trimReversed x [e]).reverse = []
  rw [trimReversed, if_neg (by omega), hlen, hpop]
  rfl

/-- Nothing is recovered from fewer than sixteen bits. -/
theorem recover_of_close (raw : List Bool) (hx : x < f.bitOffsetEnd + 16) :
    recover raw x (before ++ [f]) = before ++ [f] := by
  rw [recover_concat, if_pos (by omega)]

end

/-! ### Lists that come back (R170) -/

/-- The conditions of the round trip. -/
structure RoundTripList (d : Density) (frags : List Fragment) : Prop where
  encodable : encodable frags = true
  marks : ∀ f ∈ frags, ∃ b, f.byteData.head? = some b ∧ (f.clock, b) ∈ marksOf d
  close : ∀ (before after : List Fragment) (f g : Fragment), frags = before ++ f :: g :: after → closeEnough d f g
  silent : syncOnlyAtStarts d frags (encodeFragments d frags) = true

section
variable {d : Density} {frags before after : List Fragment} {f g : Fragment} {x n : Nat}

theorem RoundTripList.fragment (h : RoundTripList d frags) (hf : f ∈ frags) : EncodableFragment f :=
  (encodable_iff.1 h.encodable).1 f hf

theorem RoundTripList.ordered (h : RoundTripList d frags) :
    frags.Pairwise (fun f g => f.bitOffsetEnd ≤ g.bitOffsetStart) := (encodable_iff.1 h.encodable).2

/-- Every fragment lies between the starts of those before it and of those after it. -/
theorem RoundTripList.split (h : RoundTripList d (before ++ f :: after)) :
    (∀ e ∈ before, e.bitOffsetStart < f.bitOffsetStart) ∧ ∀ g ∈ after, f.bitOffsetEnd ≤ g.bitOffsetStart := by
  obtain ⟨-, hafter, hbefore⟩ := List.pairwise_append.1 h.ordered
  refine ⟨fun e he => ?_, (List.pairwise_cons.1 hafter).1⟩
  have hend := (h.fragment (List.mem_append_left _ he)).start_add_sixteen_le
  have hle := hbefore e he f List.mem_cons_self
  omega

theorem RoundTripList.holds (h : RoundTripList d frags) (hf : f ∈ frags) :
    HoldsBytes d (encodeFragments d frags) f.bitOffsetStart (explicitClock f) f.byteData :=
  holdsBytes_encodeFragments h.encodable hf

theorem RoundTripList.end_le_length (h : RoundTripList d frags) (hf : f ∈ frags) :
    f.bitOffsetEnd ≤ (encodeFragments d frags).length := by
  rw [(h.fragment hf).ends]
  exact (h.holds hf).inside

/-- Every fragment starts with its mark cell, which the detector reports as the mark it opens the fragment with. -/
theorem RoundTripList.report (h : RoundTripList d frags) (hf : f ∈ frags) :
    ∃ m : Byte × Byte, f.byteData.head? = some m.2 ∧ (m.1.toNat : Int) = f.clock ∧
      ∀ (hunting : Bool) (cell : Nat), d = .fm ∨ m.2 = 0xA1#8 ∨ hunting = true ∨ cell % 2 = 0 →
        syncTest d (window (encodeFragments d frags) f.bitOffsetStart) 16 hunting cell = some m := by
  obtain ⟨b, hb, hmem⟩ := h.marks f hf
  refine ⟨(BitVec.ofInt 8 f.clock, b), hb, toNat_ofInt_of_mem_marksOf hmem, fun hunting cell hphase => ?_⟩
  have hcell : window (encodeFragments d frags) f.bitOffsetStart = interleave (BitVec.ofInt 8 f.clock) b := by
    have := (h.holds hf).cell 0 b (by rwa [← List.head?_eq_getElem?])
    rwa [if_pos rfl, explicitClock_of_ne (ne_neg_one_of_mem_marksOf hmem)] at this
  rw [hcell]
  exact syncTest_markCell hmem hphase

/-- Condition 3 at one window: nothing is reported, or the report is harmless. -/
theorem RoundTripList.harmless_or_silent (h : RoundTripList d frags) (hx : x + 16 ≤ (encodeFragments d frags).length)
    (hstart : ∀ f ∈ frags, f.bitOffsetStart ≠ x) :
    harmlessReport frags x = true ∨ reportAt d frags (encodeFragments d frags) x = none := by
  have hat := List.all_eq_true.1 h.silent x (List.mem_range.2 (by omega))
  have hnot : frags.any (fun f => f.bitOffsetStart == x) = false := by simpa using hstart
  simpa [hnot] using hat

/-- Condition 2: no sixteen bits between neighbours. -/
theorem start_lt_of_closeEnough (h : closeEnough d f g) : g.bitOffsetStart < f.bitOffsetEnd + 16 := by
  cases d with
  | fm => exact h
  | mfm => exact (Nat.le_of_eq h).trans_lt (Nat.lt_add_of_pos_right (by decide))

/-- What the decoder read from the start of a fragment of the list on, cut to the length of that fragment. -/
theorem RoundTripList.keepBytes_eq (h : RoundTripList d frags) (hf : f ∈ frags) {e : Fragment}
    (he : DecodedFragment d (encodeFragments d frags) n e) (hstart : e.bitOffsetStart = f.bitOffsetStart)
    (hclock : e.clock = f.clock) (hle : f.bitOffsetEnd ≤ e.bitOffsetEnd) : keepBytes f.byteData.length e = f :=
  he.keepBytes_eq hstart hclock (h.fragment hf).ends hle fun k b hk => by
    rw [(h.holds hf).cell k b hk, dataOf_interleave]

theorem harmlessReport_iff (hf : frags.head? = some f) :
    harmlessReport frags x = true ↔
      x < f.bitOffsetStart ∧ f.bitOffsetStart < x + 16 ∧ f.byteData.head? = some 0xA1#8 := by
  simp [harmlessReport, hf, and_assoc]

/-! ### The lead -/

/-- Before the first fragment: nothing was read, or a byte that this fragment's mark, 0xA1, will trim away. -/
def InLead (f : Fragment) (st : DecoderState) : Prop :=
  allFragments st = [] ∨ ∃ e, allFragments st = [e] ∧ e.byteData.length = 1 ∧
    f.bitOffsetStart < e.bitOffsetEnd ∧ f.byteData.head? = some 0xA1#8

theorem InLead.after_assemble {raw : List Bool} {st : DecoderState} (h : InLead f st)
    (hinv : FragmentInv d raw n st) (hn : n < f.bitOffsetStart + 16) (bit : Bool) :
    InLead f (assemble d (shiftIn st bit)) := by
  have hsame : allFragments (shiftIn st bit) = allFragments st := rfl
  rcases allFragments_assemble d (shiftIn st bit) with heq | ⟨e, hcur, hcell⟩
  · rwa [InLead, heq, hsame]
  · have hcur : st.cur = some e := hcur
    have hcell : st.cell + 1 = 16 := hcell
    have hall : allFragments st = st.frags ++ [e] := by simp [allFragments, hcur]
    have hframed := hinv.framed e hcur
    rcases h with hnil | ⟨e', hone, -, hend, -⟩
    · simp [hall] at hnil
    · obtain rfl : e = e' := by
        have := congrArg List.getLast? (hall.symm.trans hone)
        simpa using this
      omega

/-- A report in the lead, and the one at the first fragment, trim away what the lead was read as. -/
theorem InLead.trim_eq_nil {st : DecoderState} (h : InLead f st) (hx : x ≤ f.bitOffsetStart) :
    trim x (allFragments st) = [] := by
  rcases h with hnil | ⟨e, hone, hlen, hend, -⟩
  · rw [hnil]
    rfl
  · rw [hone, trim_singleton_eq_nil hlen (by omega)]

/-- A report in the lead is a harmless one. -/
theorem RoundTripList.lead_report (h : RoundTripList d (f :: after)) {hunting : Bool} {cell : Nat} {m : Byte × Byte}
    (hx : x < f.bitOffsetStart)
    (hsync : syncTest d (window (encodeFragments d (f :: after)) x) 16 hunting cell = some m) :
    f.bitOffsetStart < x + 16 ∧ f.byteData.head? = some 0xA1#8 := by
  have hf := (h.fragment List.mem_cons_self).start_add_sixteen_le
  have hlen := h.end_le_length (List.mem_cons_self (a := f))
  have hstarts : ∀ g ∈ f :: after, x < g.bitOffsetStart :=
    List.forall_mem_cons.2 ⟨hx, fun g hg => by
      have := (h.split (before := [])).2 g hg
      omega⟩
  have hreport : reportAt d (f :: after) (encodeFragments d (f :: after)) x = some m := by
    have hnone : (f :: after).filter (fun g => decide (g.bitOffsetStart < x)) = [] :=
      List.filter_eq_nil_iff.2 fun g hg => by simpa using (hstarts g hg).le
    rw [reportAt, hnone]
    exact (syncTest_hunting hsync).2
  have hharmless := (h.harmless_or_silent (by omega) fun g hg => (hstarts g hg).ne').resolve_right
    (by rw [hreport]; exact Option.some_ne_none m)
  exact ((harmlessReport_iff rfl).1 hharmless).2

theorem RoundTripList.inLead (h : RoundTripList d (f :: after)) (hn : n ≤ (encodeFragments d (f :: after)).length)
    (hlt : n < f.bitOffsetStart + 16) : InLead f (stateAfter d (encodeFragments d (f :: after)) n) := by
  set raw := encodeFragments d (f :: after)
  induction n with
  | zero => exact .inl rfl
  | succ n ih =>
    rcases Nat.lt_or_ge (n + 1) 16 with hshort | hlong
    · left
      have hfrags := (stateAfter_inv (d := d) hn).2.decoded.frags
      refine List.eq_nil_iff_forall_not_mem.2 fun e he => ?_
      have := (hfrags e he).start_add_sixteen_le.trans (hfrags e he).inside
      omega
    obtain ⟨x, rfl⟩ : ∃ x, n = x + 15 := ⟨n - 15, by omega⟩
    have hassembled : InLead f (assembledAfter d raw (x + 15)) :=
      (ih (by omega) (by omega)).after_assemble (stateAfter_inv (Nat.le_of_succ_le hn)).2 (by omega) _
    cases hsync : syncTest d (window raw x) 16 (assembledAfter d raw (x + 15)).cur.isNone
        (assembledAfter d raw (x + 15)).cell with
    | none => rwa [stateAfter_of_silence hn hsync]
    | some m =>
      obtain ⟨hover, ha1⟩ := h.lead_report (by omega) hsync
      obtain ⟨hcur, hfrags, -⟩ := stateAfter_of_report hn hsync
      rw [hassembled.trim_eq_nil (by omega)] at hfrags
      exact .inr ⟨markFragment x m, by simp [allFragments, hcur, hfrags, recover], rfl, hover, ha1⟩

/-! ### From one fragment to the next -/

/-- What a report at the start of a fragment of the list opens is read as that fragment. -/
theorem reading_of_report {raw : List Bool} {m : Byte × Byte} (hx : f.bitOffsetStart + 16 ≤ raw.length)
    (hclock : (m.1.toNat : Int) = f.clock)
    (hsync : syncTest d (window raw f.bitOffsetStart) 16 (assembledAfter d raw (f.bitOffsetStart + 15)).cur.isNone
      (assembledAfter d raw (f.bitOffsetStart + 15)).cell = some m)
    (hbefore : recover raw f.bitOffsetStart (trim f.bitOffsetStart
      (allFragments (assembledAfter d raw (f.bitOffsetStart + 15)))) = before) :
    Reading d raw before f (f.bitOffsetStart + 16) (stateAfter d raw (f.bitOffsetStart + 16)) := by
  obtain ⟨hcur, hfrags, hcell⟩ := stateAfter_of_report hx hsync
  exact .opened _ hcur (hfrags.trans hbefore) rfl hclock (by rw [hcell]; omega) (clockLostBy_opened d raw f)

/-- The first fragment is opened at its first cell, whatever the lead was read as. -/
theorem RoundTripList.reading_first (h : RoundTripList d (f :: after)) :
    Reading d (encodeFragments d (f :: after)) [] f (f.bitOffsetStart + 16)
      (stateAfter d (encodeFragments d (f :: after)) (f.bitOffsetStart + 16)) := by
  have hf : f ∈ f :: after := List.mem_cons_self
  have hx := (h.fragment hf).start_add_sixteen_le.trans (h.end_le_length hf)
  have hlead := (h.inLead (Nat.le_of_succ_le hx) (Nat.lt_succ_self _)).after_assemble
    (stateAfter_inv (Nat.le_of_succ_le hx)).2 (Nat.lt_succ_self _)
    ((encodeFragments d (f :: after)).getD (f.bitOffsetStart + 15) false)
  obtain ⟨m, hhead, hclock, hreport⟩ := h.report hf
  refine reading_of_report hx hclock (hreport _ _ ?_) ?_
  · rcases hlead with hnil | ⟨-, -, -, -, ha1⟩
    · have hcur : (assembledAfter d (encodeFragments d (f :: after)) (f.bitOffsetStart + 15)).cur = none :=
        Option.toList_eq_nil_iff.1 (List.append_eq_nil_iff.1 hnil).2
      exact .inr (.inr (.inl (by rw [hcur]; rfl)))
    · exact .inr (.inl (Option.some.inj (hhead.symm.trans ha1)))
  · exact congrArg (recover _ _) (hlead.trim_eq_nil le_rfl)

/-- The bit time before the sync test, while a fragment is read. -/
theorem RoundTripList.reading_assembled (h : RoundTripList d frags) (hf : f ∈ frags)
    (hx : x + 16 ≤ (encodeFragments d frags).length) (hstart : f.bitOffsetStart < x)
    (hread : Reading d (encodeFragments d frags) before f (x + 15) (stateAfter d (encodeFragments d frags) (x + 15))) :
    Reading d (encodeFragments d frags) before f (x + 16) (assembledAfter d (encodeFragments d frags) (x + 15)) :=
  have hends := (h.fragment hf).ends
  hread.after_assemble (stateAfter_inv (Nat.le_of_succ_le hx)).2 (shifted_reg hx) hx hstart hends
    fun hin => clockLostBy_eq_false (h.holds hf) (hends ▸ hin)

/-- The report of the statement is the one the decoder makes while it reads the fragment opened last. -/
theorem Reading.syncTest_eq_reportAt {raw : List Bool} {st : DecoderState} (h : Reading d raw before f (x + 16) st)
    (hlast : (frags.filter fun f => decide (f.bitOffsetStart < x)).getLast? = some f) (hx : f.bitOffsetStart < x) :
    syncTest d (window raw x) 16 st.cur.isNone st.cell = reportAt d frags raw x := by
  simp only [reportAt, hlast]
  cases h with
  | opened e hcur _ _ _ hcell hkept =>
    have hphase : (x + 16 - f.bitOffsetStart) % 16 = (x - f.bitOffsetStart) % 16 := by omega
    rw [hkept, hcur, hcell, hphase]
    rfl
  | closed e hcur _ _ _ _ hlost =>
    rw [hlost, hcur, if_pos rfl]
    exact syncTest_hunting_cell ..

/-- Between the starts of two neighbours the first of them was opened last. -/
theorem getLast?_started (hx : f.bitOffsetStart < x)
    (hafter : ∀ g ∈ after, x < g.bitOffsetStart) :
    ((before ++ f :: after).filter fun f => decide (f.bitOffsetStart < x)).getLast? = some f := by
  have hnone : after.filter (fun f => decide (f.bitOffsetStart < x)) = [] :=
    List.filter_eq_nil_iff.2 fun g hg => by simpa using (hafter g hg).le
  rw [List.filter_append, List.filter_cons_of_pos (by simpa using hx), hnone, List.getLast?_concat]

/-- Between the starts of two neighbours nothing is reported. -/
theorem RoundTripList.reportAt_between (h : RoundTripList d (before ++ f :: after))
    (hlen : x + 16 ≤ (encodeFragments d (before ++ f :: after)).length) (hx : f.bitOffsetStart < x)
    (hafter : ∀ g ∈ after, x < g.bitOffsetStart) :
    reportAt d (before ++ f :: after) (encodeFragments d (before ++ f :: after)) x = none := by
  have hbefore : ∀ e ∈ before, e.bitOffsetStart < x := fun e he => (h.split.1 e he).trans hx
  have hnostart : ∀ g ∈ before ++ f :: after, g.bitOffsetStart ≠ x := by
    simp only [List.mem_append, List.mem_cons]
    rintro g (hg | rfl | hg)
    · exact (hbefore g hg).ne
    · exact hx.ne
    · exact (hafter g hg).ne'
  have hharm : ¬harmlessReport (before ++ f :: after) x = true := by
    obtain ⟨e, he, hlt⟩ : ∃ e, (before ++ f :: after).head? = some e ∧ e.bitOffsetStart < x := by
      cases before with
      | nil => exact ⟨f, rfl, hx⟩
      | cons e before => exact ⟨e, rfl, hbefore e List.mem_cons_self⟩
    rw [harmlessReport_iff he]
    omega
  exact (h.harmless_or_silent hlen hnostart).resolve_left hharm

/-- A fragment is read until the mark of the next one is complete. -/
theorem RoundTripList.reading_on (h : RoundTripList d (before ++ f :: after))
    (hread : Reading d (encodeFragments d (before ++ f :: after)) before f (f.bitOffsetStart + 16)
      (stateAfter d (encodeFragments d (before ++ f :: after)) (f.bitOffsetStart + 16)))
    (hn : f.bitOffsetStart + 16 ≤ n) (hlen : n ≤ (encodeFragments d (before ++ f :: after)).length)
    (hnext : ∀ g ∈ after, n < g.bitOffsetStart + 16) :
    Reading d (encodeFragments d (before ++ f :: after)) before f n
      (stateAfter d (encodeFragments d (before ++ f :: after)) n) := by
  set raw := encodeFragments d (before ++ f :: after)
  induction n, hn using Nat.le_induction with
  | base => exact hread
  | succ n hn ih =>
    obtain ⟨x, rfl⟩ : ∃ x, n = x + 15 := ⟨n - 15, by omega⟩
    have hstart : f.bitOffsetStart < x := by omega
    have hf : f ∈ before ++ f :: after := by simp
    have hafter : ∀ g ∈ after, x < g.bitOffsetStart := fun g hg => by
      have := hnext g hg
      omega
    have hsoon : ∀ g ∈ after, x + 15 < g.bitOffsetStart + 16 := fun g hg => by
      have := hafter g hg
      omega
    have hassembled := h.reading_assembled hf hlen hstart (ih hsoon (Nat.le_of_succ_le hlen))
    have hsilent := (hassembled.syncTest_eq_reportAt (getLast?_started hstart hafter) hstart).trans
      (h.reportAt_between hlen hstart hafter)
    rw [stateAfter_of_silence hlen hsilent]
    exact hassembled

/-- The report at the next fragment leaves the one that was read as it stands in the list. -/
theorem RoundTripList.reading_next (h : RoundTripList d (before ++ f :: g :: after))
    (hread : Reading d (encodeFragments d (before ++ f :: g :: after)) before f (g.bitOffsetStart + 15)
      (stateAfter d (encodeFragments d (before ++ f :: g :: after)) (g.bitOffsetStart + 15))) :
    Reading d (encodeFragments d (before ++ f :: g :: after)) (before ++ [f]) g (g.bitOffsetStart + 16)
      (stateAfter d (encodeFragments d (before ++ f :: g :: after)) (g.bitOffsetStart + 16)) := by
  have hf : f ∈ before ++ f :: g :: after := by simp
  have hg : g ∈ before ++ f :: g :: after := by simp
  have hok := h.fragment hf
  have hends := hok.ends
  have hafter : f.bitOffsetEnd ≤ g.bitOffsetStart := h.split.2 g List.mem_cons_self
  have hclose := h.close before after f g rfl
  have hnear := start_lt_of_closeEnough hclose
  have hx := (h.fragment hg).start_add_sixteen_le.trans (h.end_le_length hg)
  have hstart : f.bitOffsetStart < g.bitOffsetStart := by
    have := hok.start_add_sixteen_le
    omega
  have hassembled := h.reading_assembled hf hx hstart hread
  have hinv := (assembledAfter_inv (d := d) hx).2
  obtain ⟨m, -, hclock, hreport⟩ := h.report hg
  refine reading_of_report hx hclock (hreport _ _ ?phase) ?trimmed
  case phase =>
    cases d with
    | fm => exact .inl rfl
    | mfm =>
      have htouch : g.bitOffsetStart = f.bitOffsetEnd := hclose
      cases hassembled with
      | opened e _ _ _ _ hcell _ => exact .inr (.inr (.inr (by rw [hcell]; omega)))
      | closed e hcur => exact .inr (.inr (.inl (by rw [hcur]; rfl)))
  case trimmed =>
    obtain ⟨e, hall, hestart, heclock, hle⟩ := hassembled.last hinv hends (by omega)
    have he := hinv.decoded.frags e (by simp [hall])
    have hein := he.inside
    have heends := he.ends
    rw [hall, trim_concat_eq_keepBytes heends hok.nonempty (by omega) (by omega) (by omega) hein,
      h.keepBytes_eq hf he hestart heclock hle, recover_of_close _ hnear]

/-- Every fragment of the list is opened at its first cell, with those before it decoded. -/
theorem RoundTripList.reading (h : RoundTripList d (before ++ f :: after)) :
    Reading d (encodeFragments d (before ++ f :: after)) before f (f.bitOffsetStart + 16)
      (stateAfter d (encodeFragments d (before ++ f :: after)) (f.bitOffsetStart + 16)) := by
  induction before using List.reverseRecOn generalizing f after with
  | nil => exact h.reading_first
  | append_singleton before e ih =>
    have hsplit : before ++ [e] ++ f :: after = before ++ e :: f :: after := by simp
    rw [hsplit] at h ⊢
    have he := (h.fragment (f := e) (by simp)).start_add_sixteen_le
    have hbefore : e.bitOffsetEnd ≤ f.bitOffsetStart := h.split.2 f List.mem_cons_self
    have hf : f ∈ before ++ e :: f :: after := by simp
    have hroom := (h.fragment hf).start_add_sixteen_le.trans (h.end_le_length hf)
    have horder := (RoundTripList.split (before := before ++ [e]) (hsplit ▸ h)).2
    refine h.reading_next (h.reading_on (ih h) (by omega) (Nat.le_of_succ_le hroom) ?_)
    refine List.forall_mem_cons.2 ⟨Nat.lt_succ_self _, fun g hg => ?_⟩
    have := horder g hg
    have := (h.fragment hf).start_add_sixteen_le
    omega

/-- At the end of the stream the last fragment is read to its end. -/
theorem RoundTripList.decodeBits_eq (h : RoundTripList d frags) : decodeBits d (encodeFragments d frags) = frags := by
  rcases List.eq_nil_or_concat' frags with rfl | ⟨before, f, rfl⟩
  · rfl
  have hf : f ∈ before ++ [f] := by simp
  have hok := h.fragment hf
  have hlen : (encodeFragments d (before ++ [f])).length = f.bitOffsetEnd := by
    rw [length_encodeFragments h.encodable, lastEnd_concat]
  have hread := h.reading_on h.reading hok.start_add_sixteen_le hlen.ge (by simp)
  have hinv := (stateAfter_inv (d := d) hlen.ge).2
  obtain ⟨e, hall, hstart, hclock, hle⟩ := hread.last hinv hok.ends le_rfl
  have he := hinv.decoded.frags e (by simp [hall])
  have hsame : e.byteData.length = f.byteData.length := by
    have := he.inside
    have := he.ends
    have := hok.ends
    omega
  have hef : e = f := by
    rw [← keepBytes_all he.ends, hsame]
    exact h.keepBytes_eq hf he hstart hclock hle
  rw [decodeBits_eq_allFragments, hlen, hall, hef]

end

/-- Settles O60: the decoder reads fragment after fragment, each trimmed to the list's by the report at the next. -/
theorem codecRoundTrip : Obligations.CodecRoundTrip := by
  unfold Obligations.CodecRoundTrip
  exact fun d frags henc hmarks hclose hsilent => RoundTripList.decodeBits_eq ⟨henc, hmarks, hclose, hsilent⟩

end Sys2Proof.Machine
end

section
/-! SUPPORT and proof of the sector framer (45_sector_framer.md R177 to R184) and of the field checks it shares with
the CRC unit (40_crc16.md R102, R103). The model reads bytes where it can fail; the statements speak of `slice`,
`sizeAt` and `storedCrc`, which cannot. On a view in bounds the two agree: that is said here once. -/

namespace Sys2Proof.Machine

/-! ### The byte space where it is defined -/

section
variable {data data' bytes : List Byte} {a b n : Nat}

theorem memRead_of_le (h : a + n ≤ data.length) : memRead data a n = some (slice data a n) := if_pos h

theorem exists_memWrite (h : a + bytes.length ≤ data.length) : ∃ data', memWrite data a bytes = some data' :=
  ⟨_, memWrite_eq_some.2 ⟨h, rfl⟩⟩

theorem slice_memWrite_same (h : memWrite data a bytes = some data') : slice data' a bytes.length = bytes :=
  (memRead_eq_some.1 (memRead_memWrite_same h)).2.symm

theorem slice_memWrite_before (h : memWrite data a bytes = some data') (hb : b + n ≤ a) :
    slice data' b n = slice data b n := by
  have hin : b + n ≤ data.length := by
    have hwritten := (memWrite_eq_some.1 h).1
    omega
  have hread := memRead_memWrite_disjoint h (.inl hb)
  rw [memRead_of_le hin, memRead_of_le (by rwa [memWrite_length h])] at hread
  exact Option.some.inj hread

/-- A stored CRC is two bytes read and compared (20_memory.md R48). -/
theorem storedCrc_eq_decide (h : a + 2 ≤ data.length) (c : Word16) :
    storedCrc data a c = decide (slice data a 2 = crcBytes c) := by
  have hpair : slice data a 2 = [data[a], data[a + 1]] := by
    rw [slice, List.drop_eq_getElem_cons (by omega), List.drop_eq_getElem_cons (by omega)]
    rfl
  have h0 : data[a]? = some data[a] := List.getElem?_eq_getElem _
  have h1 : data[a + 1]? = some data[a + 1] := List.getElem?_eq_getElem _
  simp [storedCrc, hpair, h0, h1, crcBytes, Bool.beq_eq_decide_eq]

theorem storedCrc_memWrite {c : Word16} (h : memWrite data a (crcBytes c) = some data') :
    storedCrc data' a c = true := by
  have hin : a + 2 ≤ data'.length := by
    rw [memWrite_length h]
    exact (memWrite_eq_some.1 h).1
  rw [storedCrc_eq_decide hin, decide_eq_true_eq]
  exact slice_memWrite_same h

end

/-! ### Views in bounds -/

/-- The size code selects 128, 256, 512 or 1024 bytes (30_encoding.md R75). -/
theorem sizeOfCode_eq (code : Byte) : sizeOfCode code = 128 * 2 ^ (code.toNat % 4) := by
  have hlow : (code &&& 3#8).toNat = code.toNat % 4 :=
    (BitVec.toNat_and ..).trans (Nat.and_two_pow_sub_one_eq_mod code.toNat 2)
  rw [sizeOfCode, Nat.shiftLeft_eq, hlow]

theorem getElem?_eq_getD {data : List Byte} {a : Nat} (h : a < data.length) : data[a]? = some (data.getD a 0#8) := by
  rw [List.getD_eq_getElem?_getD, List.getElem?_eq_getElem h, Option.getD_some]

theorem size?_of_lt {data : List Byte} {v : View} (h : v.idOff + 4 < data.length) :
    size? data v = some (sizeAt data v) := by
  rw [size?, sizeCode?, getElem?_eq_getD h, Option.map_some, sizeOfCode_eq, sizeAt]

/-- Both fields of the view, with their CRCs, lie in the buffer (10_state.md R30 (b)). -/
structure InBounds (data : List Byte) (v : View) : Prop where
  idEnd : v.idOff + 7 ≤ data.length
  dataEnd : v.dataOff + 1 + sizeAt data v + 2 ≤ data.length

theorem InBounds.size?_eq {data : List Byte} {v : View} (h : InBounds data v) :
    size? data v = some (sizeAt data v) :=
  size?_of_lt (by have := h.idEnd; omega)

/-- The model's check of a view is these two bounds. -/
theorem viewInBounds_iff {data : List Byte} {v : View} : viewInBounds data v = true ↔ InBounds data v := by
  constructor
  · intro h
    unfold viewInBounds at h
    split at h
    · next n hsize =>
      obtain ⟨hid, hdata⟩ : v.idOff + 7 ≤ data.length ∧ v.dataOff + 1 + n + 2 ≤ data.length := by simpa using h
      have hn : sizeAt data v = n := Option.some.inj ((size?_of_lt (by omega)).symm.trans hsize)
      exact ⟨hid, by rwa [hn]⟩
    · cases h
  · intro h
    simp [viewInBounds, h.size?_eq, h.idEnd, h.dataEnd]

/-! ### What goes on with a view -/

section
variable {s : State} {r : TrackRef} {v : View} {t : Track}

theorem withView_of_mem (ht : s.track? r = some t) (hv : v ∈ t.sector) (f : Track → Out) :
    withView r v s f = f t := by
  rw [withView, withTrack, ht, orRefuse_some, if_pos hv]

/-- A view that is not in its track's list is refused (R175). -/
theorem withView_of_not_mem (ht : s.track? r = some t) (hv : v ∉ t.sector) (f : Track → Out) :
    withView r v s f = .refused .staleView := by
  rw [withView, withTrack, ht, orRefuse_some, if_neg hv]

/-! ### Size, Matches, Read -/

/-- A field inside the buffer matches the wildcard and its own value (R178). -/
theorem fieldMatches_of_lt {data : List Byte} {a : Nat} (h : a < data.length) (x : Int) :
    fieldMatches x data[a]? = decide (x = -1 ∨ x = ((data.getD a 0#8).toNat : Int)) := by
  rw [getElem?_eq_getD h, fieldMatches, Bool.decide_or, Bool.beq_eq_decide_eq, Bool.beq_eq_decide_eq]

theorem sectorMatches_eq {data : List Byte} (hin : v.idOff + 3 < data.length) (c h n : Int) :
    sectorMatches data c h n v = decide (
      (c = -1 ∨ c = ((data.getD (v.idOff + 1) 0#8).toNat : Int)) ∧
      (h = -1 ∨ h = ((data.getD (v.idOff + 2) 0#8).toNat : Int)) ∧
      (n = -1 ∨ n = ((data.getD (v.idOff + 3) 0#8).toNat : Int))) := by
  rw [sectorMatches, cylinder?, head?, sectorId?, fieldMatches_of_lt (by omega), fieldMatches_of_lt (by omega),
    fieldMatches_of_lt hin, Bool.decide_and, Bool.decide_and, Bool.and_assoc]

theorem InBounds.sectorRead_eq {data : List Byte} (h : InBounds data v) :
    sectorRead data v = some (slice data (v.dataOff + 1) (sizeAt data v)) := by
  have hread := memRead_of_le (data := data) (a := v.dataOff + 1) (n := sizeAt data v) (by have := h.dataEnd; omega)
  simp only [sectorRead, h.size?_eq, hread]

theorem exec_sectorSize (ht : s.track? r = some t) (hv : v ∈ t.sector) (h : InBounds t.data v) :
    exec (.sectorSize r v) s = .next (reply (.number (sizeAt t.data v)) s) := by
  change withView r v s _ = _
  rw [withView_of_mem ht hv, h.size?_eq, orRefuse_some]

theorem exec_sectorMatches (ht : s.track? r = some t) (hv : v ∈ t.sector) (c h n : Int) :
    exec (.sectorMatches r v c h n) s = .next (reply (.truth (sectorMatches t.data c h n v)) s) :=
  withView_of_mem ht hv _

theorem exec_sectorRead (ht : s.track? r = some t) (hv : v ∈ t.sector) (h : InBounds t.data v) :
    exec (.sectorRead r v) s = .next (reply (.bytes (slice t.data (v.dataOff + 1) (sizeAt t.data v))) s) := by
  change withView r v s _ = _
  rw [withView_of_mem ht hv, h.sectorRead_eq, orRefuse_some]

end

/-- Settles O29, by whether the view is in the track's list. -/
theorem sectorReads : Obligations.SectorReads := by
  unfold Obligations.SectorReads
  refine fun s r v t ht => ⟨fun hv hin => ?listed, fun hv => ?stale⟩
  case listed =>
    have hb := viewInBounds_iff.1 hin
    refine ⟨exec_sectorSize ht hv hb, fun c h n => ?_, exec_sectorRead ht hv hb⟩
    rw [exec_sectorMatches ht hv, sectorMatches_eq (by have := hb.idEnd; omega)]
    rfl
  case stale =>
    exact ⟨withView_of_not_mem ht hv _, fun _ _ _ => withView_of_not_mem ht hv _, withView_of_not_mem ht hv _⟩

/-! ### The field checks -/

/-- The CRC over the ID field of a view (40_crc16.md R99). -/
def idCrc (p : Params) (d : Density) (data : List Byte) (v : View) : Word16 :=
  crcOver (crcPreset p d) (slice data v.idOff 5)

/-- The CRC over the data field of a view (40_crc16.md R99). -/
def dataCrc (p : Params) (d : Density) (data : List Byte) (v : View) : Word16 :=
  crcOver (crcPreset p d) (slice data v.dataOff (1 + sizeAt data v))

section
variable {p : Params} {d : Density} {data : List Byte} {v : View}

theorem InBounds.fieldCrcId_eq (h : InBounds data v) : fieldCrcId p d data v = some (idCrc p d data v) := by
  rw [fieldCrcId, memRead_of_le (by have := h.idEnd; omega), Option.map_some, idCrc]

theorem InBounds.fieldCrcData_eq (h : InBounds data v) : fieldCrcData p d data v = some (dataCrc p d data v) := by
  have hread := memRead_of_le (data := data) (a := v.dataOff) (n := 1 + sizeAt data v)
    (by have := h.dataEnd; omega)
  simp only [fieldCrcData, h.size?_eq, hread, Option.map_some, dataCrc]

/-- `VerifyID` and `ValidID` on a view in bounds (40_crc16.md R102; R180). -/
theorem InBounds.verifyId_eq (h : InBounds data v) :
    verifyId p d data v = some (idGood p d data v, idCrc p d data v) := by
  have hin : v.idOff + 5 + 2 ≤ data.length := h.idEnd
  have hgood : idGood p d data v = decide (slice data (v.idOff + 5) 2 = crcBytes (idCrc p d data v)) :=
    storedCrc_eq_decide hin _
  simp only [verifyId, h.fieldCrcId_eq, memRead_of_le hin, hgood]

/-- `VerifyData` and `ValidData` on a view in bounds (40_crc16.md R103; R181). -/
theorem InBounds.verifyData_eq (h : InBounds data v) :
    verifyData p d data v = some (dataGood p d data v, dataCrc p d data v) := by
  have hin : v.dataOff + sizeAt data v + 1 + 2 ≤ data.length := by
    have := h.dataEnd
    omega
  have hgood : dataGood p d data v =
      decide (slice data (v.dataOff + sizeAt data v + 1) 2 = crcBytes (dataCrc p d data v)) :=
    storedCrc_eq_decide hin _
  simp only [verifyData, h.size?_eq, h.fieldCrcData_eq, memRead_of_le hin, hgood]

end

/-- Settles O16: the four operations are two checks of a view, and each check is the statement's own test. -/
theorem fieldChecks : Obligations.FieldChecks := by
  unfold Obligations.FieldChecks
  intro s r v t d ht hv hd hin
  have hb := viewInBounds_iff.1 hin
  have hid : checkView r v s verifyId =
      .next (reply (.truth (idGood s.cfg d t.data v)) (leaveCrc (idCrc s.cfg d t.data v) s)) :=
    checkView_eq_next.2 ⟨t, d, _, ht, hv, hd, hb.verifyId_eq, rfl⟩
  have hdata : checkView r v s verifyData =
      .next (reply (.truth (dataGood s.cfg d t.data v)) (leaveCrc (dataCrc s.cfg d t.data v) s)) :=
    checkView_eq_next.2 ⟨t, d, _, ht, hv, hd, hb.verifyData_eq, rfl⟩
  exact ⟨⟨_, _, hid, hid⟩, ⟨_, _, hdata, hdata⟩⟩

/-! ### Writes behind the ID field -/

section
variable {p : Params} {d : Density} {data data' bytes : List Byte} {v : View} {a : Nat}

theorem sizeAt_memWrite (h : memWrite data a bytes = some data') (ha : v.idOff + 7 ≤ a) :
    sizeAt data' v = sizeAt data v := by
  have hcode : data'[v.idOff + 4]? = data[v.idOff + 4]? := memWrite_get_outside h (.inl (by omega))
  rw [sizeAt, sizeAt, List.getD_eq_getElem?_getD, List.getD_eq_getElem?_getD, hcode]

theorem idGood_memWrite (h : memWrite data a bytes = some data') (ha : v.idOff + 7 ≤ a) :
    idGood p d data' v = idGood p d data v := by
  have hfield : slice data' v.idOff 5 = slice data v.idOff 5 := slice_memWrite_before h (by omega)
  have hhi : data'[v.idOff + 5]? = data[v.idOff + 5]? := memWrite_get_outside h (.inl (by omega))
  have hlo : data'[v.idOff + 5 + 1]? = data[v.idOff + 5 + 1]? := memWrite_get_outside h (.inl (by omega))
  rw [idGood, idGood, storedCrc, storedCrc, hfield, hhi, hlo]

theorem InBounds.of_memWrite (hb : InBounds data v) (h : memWrite data a bytes = some data')
    (ha : v.idOff + 7 ≤ a) : InBounds data' v :=
  ⟨by rw [memWrite_length h]; exact hb.idEnd, by rw [memWrite_length h, sizeAt_memWrite h ha]; exact hb.dataEnd⟩

end

@[simp] theorem length_sectorImage (n : Nat) (mark : Byte) (buf : List Byte) :
    (sectorImage n mark buf).length = 1 + n := by
  simp only [sectorImage, List.length_cons, List.length_append, List.length_take, List.length_replicate]
  omega

/-! ### The sector write on a track -/

section
variable {p : Params} {d : Density} {t t' : Track} {v : View} {mark : Byte} {buf : List Byte}

/-- `DataModified` on a view in bounds stores the CRC over the data field (40_crc16.md R104). -/
theorem InBounds.dataModified_eq (hb : InBounds t.data v) :
    ∃ data', memWrite t.data (v.dataOff + sizeAt t.data v + 1) (crcBytes (dataCrc p d t.data v)) = some data' ∧
      dataModified p d t v = some ({ t with data := data', dirty := true }, dataCrc p d t.data v) := by
  have hfits : v.dataOff + sizeAt t.data v + 1 + 2 ≤ t.data.length := by
    have := hb.dataEnd
    omega
  obtain ⟨data', hwrite⟩ := exists_memWrite (bytes := crcBytes (dataCrc p d t.data v)) hfits
  exact ⟨data', hwrite, by simp only [dataModified, hb.size?_eq, hb.fieldCrcData_eq, hwrite]⟩

/-- What a track holds in the place of a sector's image: mark and data bytes (R182). -/
def HoldsImage (data : List Byte) (v : View) (mark : Byte) (buf : List Byte) : Prop :=
  slice data v.dataOff (1 + sizeAt data v) = sectorImage (sizeAt data v) mark buf

/-- A write of the bytes that are there changes nothing (R185). -/
theorem sectorWrite_of_holds (hb : InBounds t.data v) (h : HoldsImage t.data v mark buf) :
    sectorWrite p d t v mark buf = some (t, none) := by
  have hread := memRead_of_le (data := t.data) (a := v.dataOff) (n := 1 + sizeAt t.data v)
    (by have := hb.dataEnd; omega)
  simp only [sectorWrite, hb.size?_eq, hread, if_pos h.symm]

/-- A write of other bytes stores them and then the CRC over them (R182). -/
theorem sectorWrite_of_not_holds (hb : InBounds t.data v) (hid : v.idOff + 7 ≤ v.dataOff)
    (h : ¬HoldsImage t.data v mark buf) :
    ∃ data data' : List Byte,
      memWrite t.data v.dataOff (sectorImage (sizeAt t.data v) mark buf) = some data ∧
      memWrite data (v.dataOff + sizeAt data v + 1) (crcBytes (dataCrc p d data v)) = some data' ∧
      sectorWrite p d t v mark buf = some ({ t with data := data', dirty := true }, some (dataCrc p d data v)) := by
  have hin : v.dataOff + (1 + sizeAt t.data v) ≤ t.data.length := by
    have := hb.dataEnd
    omega
  obtain ⟨data, himage⟩ := exists_memWrite (bytes := sectorImage (sizeAt t.data v) mark buf) (by simpa using hin)
  obtain ⟨data', hcrc, hmod⟩ :=
    InBounds.dataModified_eq (p := p) (d := d) (t := { t with data := data }) (hb.of_memWrite himage hid)
  have hne : sectorImage (sizeAt t.data v) mark buf ≠ slice t.data v.dataOff (1 + sizeAt t.data v) := Ne.symm h
  exact ⟨data, data', himage, hcrc,
    by simp only [sectorWrite, hb.size?_eq, memRead_of_le hin, if_neg hne, himage, hmod]⟩

/-- What a sector `Write` leaves in the bytes of its track (R184). -/
structure SectorWritten (p : Params) (d : Density) (v : View) (mark : Byte) (buf data data' : List Byte) : Prop where
  inBounds : InBounds data' v
  holds : HoldsImage data' v mark buf
  idGood_eq : idGood p d data' v = idGood p d data v
  dataGood_of : data' ≠ data ∨ dataGood p d data v = true → dataGood p d data' v = true

/-- The two writes of a `Write` that changes a byte, one behind the other and both behind the ID field. -/
theorem sectorWritten_of_memWrite {buf data stored data' : List Byte} (hb : InBounds data v)
    (hid : v.idOff + 7 ≤ v.dataOff)
    (himage : memWrite data v.dataOff (sectorImage (sizeAt data v) mark buf) = some stored)
    (hcrc : memWrite stored (v.dataOff + sizeAt stored v + 1) (crcBytes (dataCrc p d stored v)) = some data') :
    SectorWritten p d v mark buf data data' := by
  have hbehind : v.idOff + 7 ≤ v.dataOff + sizeAt stored v + 1 := by omega
  have hsize : sizeAt data' v = sizeAt stored v := sizeAt_memWrite hcrc hbehind
  have hfield : slice data' v.dataOff (1 + sizeAt data' v) = slice stored v.dataOff (1 + sizeAt stored v) := by
    rw [hsize]
    exact slice_memWrite_before hcrc (by omega)
  have hholds : HoldsImage data' v mark buf := by
    have hstored := slice_memWrite_same himage
    rw [length_sectorImage, ← sizeAt_memWrite himage hid] at hstored
    rw [HoldsImage, hfield, hstored, hsize]
  have hgood : dataGood p d data' v = true := by
    rw [dataGood, hfield, hsize]
    exact storedCrc_memWrite hcrc
  exact
    { inBounds := (hb.of_memWrite himage hid).of_memWrite hcrc hbehind
      holds := hholds
      idGood_eq := (idGood_memWrite hcrc hbehind).trans (idGood_memWrite himage hid)
      dataGood_of := fun _ => hgood }

theorem exists_sectorWrite (p : Params) (d : Density) (mark : Byte) (buf : List Byte) (hb : InBounds t.data v)
    (hid : v.idOff + 7 ≤ v.dataOff) :
    ∃ t' c, sectorWrite p d t v mark buf = some (t', c) ∧ SectorWritten p d v mark buf t.data t'.data := by
  by_cases h : HoldsImage t.data v mark buf
  · exact ⟨t, none, sectorWrite_of_holds hb h, hb, h, rfl, fun hor => hor.resolve_left (not_not_intro rfl)⟩
  · obtain ⟨stored, data', himage, hcrc, hwrite⟩ := sectorWrite_of_not_holds (p := p) (d := d) hb hid h
    exact ⟨_, _, hwrite, sectorWritten_of_memWrite hb hid himage hcrc⟩

end

/-! ### The sector write on the state -/

section
variable {s : State} {r : TrackRef} {v : View} {t : Track} {d : Density} {mark : Byte} {buf : List Byte}

theorem exec_sectorWrite {w : Track × Option Word16} (ht : s.track? r = some t) (hv : v ∈ t.sector)
    (hd : t.format.density? = some d) (h : sectorWrite s.cfg d t v mark buf = some w) :
    exec (.sectorWrite r v mark buf) s = .next (leaveCrc? w.2 ((reply .nothing s).putTrack r w.1)) :=
  writeSectorAt_eq_next.2 ⟨t, d, w, ht, hv, hd, h, rfl⟩

theorem exec_sectorWrite_of_holds (ht : s.track? r = some t) (hv : v ∈ t.sector) (hd : t.format.density? = some d)
    (hb : InBounds t.data v) (h : HoldsImage t.data v mark buf) :
    exec (.sectorWrite r v mark buf) s = .next (reply .nothing s) := by
  rw [exec_sectorWrite ht hv hd (sectorWrite_of_holds hb h)]
  exact congrArg Host.Outcome.next (State.putTrack_self (s := reply .nothing s) ht)

/-- The written track is seen through its reference, whatever the CRC register then holds. -/
theorem track?_written (ht : s.track? r = some t) (c : Option Word16) (t' : Track) :
    (leaveCrc? c ((reply .nothing s).putTrack r t')).track? r = some t' :=
  (track?_congr (leaveCrc?_drives ..) (leaveCrc?_images ..) r).trans
    (State.track?_putTrack_same (s := reply .nothing s) t' ht ⟨rfl, rfl, rfl⟩)

theorem reply_nothing_of_result (h : s.result = .nothing) : reply .nothing s = s := by
  cases s
  cases h
  rfl

end

/-- Settles O31: the write leaves its image in the track, so that the second write finds the bytes it would
store. -/
theorem sectorWriteThenValid : Obligations.SectorWriteThenValid := by
  unfold Obligations.SectorWriteThenValid
  intro s r v t d mark buf ht hv hd hin hid
  obtain ⟨t', c, hwrite, hwritten⟩ := exists_sectorWrite s.cfg d mark buf (viewInBounds_iff.1 hin) hid
  have hshape := (sectorWrite_shape hwrite).1
  have hv' : v ∈ t'.sector := by rwa [hshape]
  have hd' : t'.format.density? = some d := by rwa [hshape]
  have ht' := track?_written ht c t'
  refine ⟨_, t', exec_sectorWrite ht hv hd hwrite, ht', hv', hwritten.idGood_eq, hwritten.dataGood_of, ?again⟩
  case again =>
    rw [exec_sectorWrite_of_holds ht' hv' hd' hwritten.inBounds hwritten.holds, reply_nothing_of_result (by simp)]

end Sys2Proof.Machine
end

section
/-! SUPPORT and proof of `RawWrite`, `LocateSectors` and `GetSector` as operations (46_track_buffer.md R204, R205,
R210). A track that is installed is seen through its reference, and nothing else is changed: that is said here once,
for these operations and for track `Write`. -/

namespace Sys2Proof.Machine

section
variable {s s' : State} {r : TrackRef} {t : Track}

theorem withTrack_of_some (ht : s.track? r = some t) (f : Track → Out) : withTrack r s f = f t := by
  rw [withTrack, ht, orRefuse_some]

/-! ### A track is installed -/

/-- The frame of an installed track, whatever the other fields of the state then hold. -/
theorem frame_of_installed (ht : s.track? r = some t) {t' : Track} (hdrives : s'.drives = s.drives)
    (himages : s'.images = (s.putTrack r t').images) : sameElsewhere r s s' ∧ trackIs r t' s' :=
  have hdisks : sameDisks (s.putTrack r t') s' := ⟨hdrives.trans (putTrack_drives s r t').symm, himages⟩
  ⟨sameElsewhere_congr (State.sameElsewhere_putTrack t' ht) hdisks,
    trackIs_congr (State.trackIs_putTrack t' ht) hdisks⟩

theorem reply_putTrack_eq (res : Result) (t' : Track) :
    reply res (s.putTrack r t') = { s with images := (s.putTrack r t').images, result := res } :=
  congrArg (reply res) (putTrack_eq s r t')

/-- An operation that installs a track and hands nothing over. -/
theorem installed_next {o : Out} {t' : Track} (ht : s.track? r = some t)
    (ho : o = .next (reply .nothing (s.putTrack r t'))) :
    ∃ s', o = .next s' ∧ s' = { s with images := (s.putTrack r t').images, result := .nothing } ∧
      sameElsewhere r s s' ∧ trackIs r t' s' :=
  ⟨_, ho, reply_putTrack_eq .nothing t', frame_of_installed ht (putTrack_drives s r t') rfl⟩

/-! ### The operations -/

variable {fmt : TrackFormat} {clock : List Nat} {data : List Byte}

theorem exec_trackRawWrite_of_ascending (ht : s.track? r = some t) (hc : clock.Pairwise (· ≤ ·))
    (hx : s.cmdInProgress = .none) :
    exec (.trackRawWrite r fmt clock data) s =
      .next (reply .nothing (s.putTrack r (rawTrack s.cfg fmt clock data))) := by
  change execTrackRawWrite r fmt clock data s = _
  simp [execTrackRawWrite, (ascending_iff_pairwise clock).2 hc, hx, withTrack_of_some ht]

theorem exec_trackRawWrite_of_not_ascending (hc : ¬clock.Pairwise (· ≤ ·)) :
    exec (.trackRawWrite r fmt clock data) s = .refused .clockNotAscending := by
  have hasc : ascending clock = false := by
    rwa [← ascending_iff_pairwise, Bool.not_eq_true] at hc
  change execTrackRawWrite r fmt clock data s = _
  simp [execTrackRawWrite, hasc]

theorem exec_trackRawWrite_of_transfer (hc : clock.Pairwise (· ≤ ·)) (hx : s.cmdInProgress ≠ .none) :
    exec (.trackRawWrite r fmt clock data) s = .refused .loaderDuringTransfer := by
  change execTrackRawWrite r fmt clock data s = _
  simp [execTrackRawWrite, (ascending_iff_pairwise clock).2 hc, hx]

theorem exec_trackLocateSectors (ht : s.track? r = some t) :
    exec (.trackLocateSectors r) s = .next (reply .nothing (s.putTrack r (relocate s.cfg t))) :=
  withTrack_of_some ht _

theorem exec_trackGetSector (ht : s.track? r = some t) (c h n : Int) :
    exec (.trackGetSector r c h n) s = .next (reply (.view (getSector t c h n)) s) :=
  withTrack_of_some ht _

end

/-- `GetSector` answers none where no sector matches (R210). -/
theorem getSector_eq_none {t : Track} {c h n : Int} :
    getSector t c h n = none ↔ ∀ v ∈ t.sector, ¬sectorMatches t.data c h n v = true := by
  rw [getSector, List.find?_eq_none]

/-- `GetSector` answers the first match in list order (R210). -/
theorem getSector_eq_some {t : Track} {c h n : Int} {v : View} :
    getSector t c h n = some v ↔ sectorMatches t.data c h n v = true ∧
      ∃ before after, t.sector = before ++ v :: after ∧
        ∀ u ∈ before, ¬sectorMatches t.data c h n u = true := by
  simp only [getSector, List.find?_eq_some_iff_append, Bool.not_eq_eq_eq_not, Bool.not_true, Bool.not_eq_true]

/-- Settles O36, by the two tests of the loader. -/
theorem rawWriteOperation : Obligations.RawWriteOperation := by
  unfold Obligations.RawWriteOperation
  intro s r t fmt clock data ht
  refine ⟨fun hc hx => ?installed, exec_trackRawWrite_of_not_ascending, exec_trackRawWrite_of_transfer⟩
  case installed => exact installed_next ht (exec_trackRawWrite_of_ascending ht hc hx)

/-- Settles O37: the statement's own test of a view is the model's on every view of the list, because these are in
bounds. -/
theorem locateAndGetSector : Obligations.LocateAndGetSector := by
  unfold Obligations.LocateAndGetSector
  refine fun s r t ht => ⟨installed_next ht (exec_trackLocateSectors ht), fun c h n hin => ?get⟩
  case get =>
    refine ⟨getSector t c h n, exec_trackGetSector ht c h n, ?_⟩
    intro hit
    have hmatch : ∀ v ∈ t.sector, sectorMatches t.data c h n v = true ↔ hit v := fun v hv => by
      have hid := (viewInBounds_iff.1 (List.all_eq_true.1 hin v hv)).idEnd
      rw [sectorMatches_eq (by omega), decide_eq_true_iff]
    cases hfound : getSector t c h n with
    | none => exact fun v hv hv' => getSector_eq_none.1 hfound v hv ((hmatch v hv).2 hv')
    | some v =>
      obtain ⟨hv, before, after, hsplit, hbefore⟩ := getSector_eq_some.1 hfound
      refine ⟨(hmatch v (by simp [hsplit])).1 hv, before, after, hsplit, fun u hu hu' => hbefore u hu ?_⟩
      exact (hmatch u (by simp [hsplit, hu])).2 hu'

end Sys2Proof.Machine
end

section
/-! SUPPORT and proof of what the offset scanner finds (46_track_buffer.md R205 to R208). The scanner is run over the
clock list entry by entry; after each, its pending ID and its list are told from the entries read so far. -/

namespace Sys2Proof.Machine

/-! ### What a clock entry names -/

/-- An ID mark (R205). -/
def IdMarkAt (data : List Byte) (a : Nat) : Prop := data[a]? = some 0xFE#8

/-- A data mark (R205). -/
def DataMarkAt (data : List Byte) (a : Nat) : Prop := ∃ m, data[a]? = some m ∧ 0xF8#8 ≤ m ∧ m ≤ 0xFB#8

section
variable {data : List Byte} {a o limit : Nat}

theorem DataMarkAt.not_idMarkAt (h : DataMarkAt data a) : ¬IdMarkAt data a := by
  obtain ⟨m, hm, -, hle⟩ := h
  rw [IdMarkAt, hm, Option.some.injEq]
  rintro rfl
  exact absurd hle (by decide)

theorem markAt_mul (data : List Byte) (a : Nat) : markAt data (8 * a) = data[a]? := by
  simp [markAt]

theorem IdMarkAt.scannerActs (h : IdMarkAt data a) : scannerActs data (8 * a) = true := by
  rw [Machine.scannerActs, markAt_mul, h]
  rfl

theorem DataMarkAt.scannerActs (h : DataMarkAt data a) : scannerActs data (8 * a) = true := by
  obtain ⟨m, hm, hge, hle⟩ := h
  simp [Machine.scannerActs, markAt_mul, hm, hge, hle]

/-- The scanner passes a clock entry over, or it is the place of an ID mark or of a data mark (R205, R207). -/
theorem clockEntry_cases (data : List Byte) (o : Nat) :
    scannerActs data o = false ∨ ∃ a, o = 8 * a ∧ (IdMarkAt data a ∨ DataMarkAt data a) := by
  by_cases hal : o % 8 = 0
  · obtain ⟨a, rfl⟩ := Nat.dvd_of_mod_eq_zero hal
    cases hm : data[a]? with
    | none => exact .inl (by simp [scannerActs, markAt_mul, hm])
    | some m =>
      by_cases hacts : m = 0xFE#8 ∨ 0xF8#8 ≤ m ∧ m ≤ 0xFB#8
      · exact .inr ⟨a, rfl, hacts.imp (fun h => hm.trans (congrArg some h)) (fun h => ⟨m, hm, h⟩)⟩
      · exact .inl (by simpa [scannerActs, markAt_mul, hm] using hacts)
  · exact .inl (by simp [scannerActs, markAt, hal])

/-! ### One entry of the scan -/

theorem scanEntry_of_not_acts (h : scannerActs data o = false) (sc : Scan) : scanEntry limit data sc o = sc := by
  by_cases hal : o % 8 = 0
  · rw [scannerActs, markAt, if_pos hal] at h
    cases hm : data[o / 8]? with
    | none => simp [scanEntry, hm]
    | some m =>
      obtain ⟨hid, hdata⟩ : m ≠ 0xFE#8 ∧ (0xF8#8 ≤ m → ¬m ≤ 0xFB#8) := by simpa [hm] using h
      simp only [scanEntry, hm, hid, if_false, not_and.2 hdata, ite_self]
  · simp [scanEntry, hal]

/-- An ID mark replaces the pending ID. -/
theorem scanEntry_idMark (h : IdMarkAt data a) (sc : Scan) :
    scanEntry limit data sc (8 * a) = { sc with pend := some a } := by
  have hm : data[a]? = some 0xFE#8 := h
  simp [scanEntry, hm]

/-- A data mark makes a sector with an ID that is pending, if the scanner admits the pair, and uses it up. -/
theorem scanEntry_dataMark (h : DataMarkAt data a) (sc : Scan) :
    scanEntry limit data sc (8 * a) =
      { found := sc.found ++ ((sc.pend.filter (admits limit data · a)).map (View.mk · a)).toList, pend := none } := by
  have hid := h.not_idMarkAt
  obtain ⟨m, hm, hrange⟩ := h
  have hne : m ≠ 0xFE#8 := by rintro rfl; exact hid hm
  obtain ⟨found, pend⟩ := sc
  cases pend with
  | none => simp [scanEntry, hm, hne, hrange]
  | some p => cases hadm : admits limit data p a <;> simp [scanEntry, hm, hne, hrange, hadm, Option.filter]

end

/-! ### What the scanner admits -/

/-- The distance test and the bounds test (R206, R208). -/
theorem admits_iff {limit : Nat} {data : List Byte} {v : View} :
    admits limit data v.idOff v.dataOff = true ↔
      v.idOff + 7 ≤ v.dataOff ∧ v.dataOff ≤ v.idOff + limit ∧
        v.idOff + 7 ≤ data.length ∧ v.dataOff + 1 + sizeAt data v + 2 ≤ data.length := by
  by_cases hin : v.idOff + 7 ≤ data.length
  · have hcode : data[v.idOff + 4]? = some (data.getD (v.idOff + 4) 0#8) := getElem?_eq_getD (by omega)
    simp only [admits, hcode, sizeOfCode_eq, Bool.and_eq_true, decide_eq_true_eq, sizeAt]
    omega
  · refine iff_of_false (fun h => ?_) fun h => hin h.2.2.1
    unfold admits at h
    split at h
    · cases h
    · simp [hin] at h

/-! ### The scan over the first entries of a clock list -/

/-- The scanner after `n` clock entries. -/
def scanned (limit : Nat) (data : List Byte) (clock : List Nat) (n : Nat) : Scan :=
  (clock.take n).foldl (scanEntry limit data) { found := [], pend := none }

theorem scanned_zero (limit : Nat) (data : List Byte) (clock : List Nat) :
    scanned limit data clock 0 = { found := [], pend := none } := rfl

theorem scanned_succ {limit : Nat} {data : List Byte} {clock : List Nat} {n o : Nat} (ho : clock[n]? = some o) :
    scanned limit data clock (n + 1) = scanEntry limit data (scanned limit data clock n) o := by
  rw [scanned, List.take_add_one, ho, Option.toList_some, List.foldl_append]
  rfl

theorem locateSectors_eq_scanned {p : Params} {fmt : TrackFormat} {d : Density} (hd : fmt.density? = some d)
    (clock : List Nat) (data : List Byte) :
    locateSectors p fmt clock data = (scanned (idDataMax p d) data clock clock.length).found := by
  rw [locateSectors, hd, scanned, List.take_length]

/-- The ID mark at `a` is the last of the first `n` entries that the scanner acts on. -/
def PendingId (data : List Byte) (clock : List Nat) (n a : Nat) : Prop :=
  ∃ i < n, clock[i]? = some (8 * a) ∧ IdMarkAt data a ∧
    ∀ k < n, i < k → ∀ o, clock[k]? = some o → scannerActs data o = false

/-- One of the first `n` entries is the data mark of `v`, with the ID mark of `v` pending before it. -/
def LocatedBy (limit : Nat) (data : List Byte) (clock : List Nat) (n : Nat) (v : View) : Prop :=
  ∃ j < n, clock[j]? = some (8 * v.dataOff) ∧ DataMarkAt data v.dataOff ∧ PendingId data clock j v.idOff ∧
    admits limit data v.idOff v.dataOff = true

section
variable {limit : Nat} {data : List Byte} {clock : List Nat} {n a o : Nat} {v : View}

theorem pendingId_succ (ho : clock[n]? = some o) :
    PendingId data clock (n + 1) a ↔
      (o = 8 * a ∧ IdMarkAt data a) ∨ (scannerActs data o = false ∧ PendingId data clock n a) := by
  constructor
  · rintro ⟨i, hi, hclock, hid, hquiet⟩
    rcases Nat.lt_succ_iff_lt_or_eq.1 hi with hi | rfl
    · exact .inr ⟨hquiet n n.lt_succ_self hi o ho, i, hi, hclock, hid, fun k hk => hquiet k (Nat.lt_succ_of_lt hk)⟩
    · exact .inl ⟨Option.some.inj (ho.symm.trans hclock), hid⟩
  · rintro (⟨rfl, hid⟩ | ⟨hskip, i, hi, hclock, hid, hquiet⟩)
    · exact ⟨n, n.lt_succ_self, ho, hid, fun k hk hlt => absurd hk (by omega)⟩
    · refine ⟨i, Nat.lt_succ_of_lt hi, hclock, hid, fun k hk hlt o' ho' => ?_⟩
      rcases Nat.lt_succ_iff_lt_or_eq.1 hk with hk | rfl
      · exact hquiet k hk hlt o' ho'
      · rw [ho, Option.some.injEq] at ho'
        rwa [← ho']

theorem locatedBy_succ (ho : clock[n]? = some o) :
    LocatedBy limit data clock (n + 1) v ↔ LocatedBy limit data clock n v ∨
      (o = 8 * v.dataOff ∧ DataMarkAt data v.dataOff ∧ PendingId data clock n v.idOff ∧
        admits limit data v.idOff v.dataOff = true) := by
  rw [LocatedBy, Nat.exists_lt_succ_right, ho, Option.some.injEq]
  rfl

/-- The scanner's pending ID and its list are what its entries say. -/
structure ScanInv (limit : Nat) (data : List Byte) (clock : List Nat) (n : Nat) (sc : Scan) : Prop where
  pend : ∀ a, sc.pend = some a ↔ PendingId data clock n a
  found : ∀ v, v ∈ sc.found ↔ LocatedBy limit data clock n v

/-- One entry keeps the invariant, by what the entry names. -/
theorem ScanInv.step {sc : Scan} (h : ScanInv limit data clock n sc) (ho : clock[n]? = some o) :
    ScanInv limit data clock (n + 1) (scanEntry limit data sc o) := by
  rcases clockEntry_cases data o with hskip | ⟨b, rfl, hmark | hmark⟩
  case inl =>
    rw [scanEntry_of_not_acts hskip]
    refine ⟨fun a => ?_, fun v => ?_⟩
    · rw [h.pend, pendingId_succ ho]
      refine ⟨fun hp => .inr ⟨hskip, hp⟩, ?_⟩
      rintro (⟨rfl, hid⟩ | ⟨-, hp⟩)
      · exact absurd hid.scannerActs (by simp [hskip])
      · exact hp
    · rw [h.found, locatedBy_succ ho, or_iff_left]
      rintro ⟨rfl, hdata, -⟩
      exact absurd hdata.scannerActs (by simp [hskip])
  case inr.inl =>
    rw [scanEntry_idMark hmark]
    refine ⟨fun a => ?_, fun v => ?_⟩
    · simp only [pendingId_succ ho, hmark.scannerActs, Option.some.injEq]
      constructor
      · rintro rfl
        exact .inl ⟨rfl, hmark⟩
      · rintro (⟨heq, -⟩ | ⟨hskip, -⟩)
        · omega
        · cases hskip
    · rw [h.found, locatedBy_succ ho, or_iff_left]
      rintro ⟨heq, hdata, -⟩
      obtain rfl : b = v.dataOff := by omega
      exact hdata.not_idMarkAt hmark
  case inr.inr =>
    rw [scanEntry_dataMark hmark]
    refine ⟨fun a => iff_of_false (by simp) fun hp => ?_, fun v => ?_⟩
    · rcases (pendingId_succ ho).1 hp with ⟨heq, hid⟩ | ⟨hskip, -⟩
      · obtain rfl : b = a := by omega
        exact hmark.not_idMarkAt hid
      · exact absurd hmark.scannerActs (by simp [hskip])
    · rw [List.mem_append, h.found, locatedBy_succ ho]
      refine or_congr_right ?_
      simp only [Option.mem_toList, Option.map_eq_some_iff, Option.filter_eq_some_iff, h.pend]
      constructor
      · rintro ⟨a, ⟨hp, hadm⟩, rfl⟩
        exact ⟨rfl, hmark, hp, hadm⟩
      · rintro ⟨heq, -, hp, hadm⟩
        obtain rfl : b = v.dataOff := by omega
        exact ⟨v.idOff, ⟨hp, hadm⟩, rfl⟩

theorem scanned_inv (limit : Nat) (data : List Byte) (clock : List Nat) (hn : n ≤ clock.length) :
    ScanInv limit data clock n (scanned limit data clock n) := by
  induction n with
  | zero =>
    rw [scanned_zero]
    exact ⟨fun a => iff_of_false (by simp) (by rintro ⟨i, hi, -⟩; omega),
      fun v => iff_of_false (by simp) (by rintro ⟨j, hj, -⟩; omega)⟩
  | succ n ih =>
    have ho : clock[n]? = some clock[n] := List.getElem?_eq_getElem hn
    rw [scanned_succ ho]
    exact (ih (Nat.le_of_succ_le hn)).step ho

/-! ### The order of the sectors -/

theorem pairwise_toList {α : Type} (R : α → α → Prop) (x : Option α) : x.toList.Pairwise R := by
  cases x <;> simp

/-- On an ascending clock list an ID that is pending lies behind every sector found before. -/
theorem LocatedBy.dataOff_lt (hv : LocatedBy limit data clock n v) (ha : PendingId data clock n a)
    (hasc : clock.Pairwise (· ≤ ·)) : v.dataOff < a := by
  obtain ⟨j, hj, hclockj, hdata, -⟩ := hv
  obtain ⟨i, hi, hclocki, hid, hquiet⟩ := ha
  have hne : v.dataOff ≠ a := by
    rintro rfl
    exact hdata.not_idMarkAt hid
  have hji : j ≤ i := by
    by_contra hlt
    exact absurd hdata.scannerActs (by simp [hquiet j hj (by omega) _ hclockj])
  obtain ⟨hjlen, hj'⟩ := List.getElem?_eq_some_iff.1 hclockj
  obtain ⟨hilen, hi'⟩ := List.getElem?_eq_some_iff.1 hclocki
  have hle : clock[j] ≤ clock[i] := hasc.rel_get_of_le (a := ⟨j, hjlen⟩) (b := ⟨i, hilen⟩) hji
  omega

theorem scanned_found_pairwise (hasc : clock.Pairwise (· ≤ ·)) (hn : n ≤ clock.length) :
    (scanned limit data clock n).found.Pairwise fun v w => v.dataOff < w.idOff := by
  induction n with
  | zero => exact .nil
  | succ n ih =>
    have ho : clock[n]? = some clock[n] := List.getElem?_eq_getElem hn
    have hinv := scanned_inv limit data clock (Nat.le_of_succ_le hn)
    specialize ih (Nat.le_of_succ_le hn)
    rw [scanned_succ ho]
    rcases clockEntry_cases data clock[n] with hskip | ⟨b, hb, hmark | hmark⟩
    · rwa [scanEntry_of_not_acts hskip]
    · rwa [hb, scanEntry_idMark hmark]
    · rw [hb, scanEntry_dataMark hmark, List.pairwise_append]
      refine ⟨ih, pairwise_toList _ _, fun v hv w hw => ?_⟩
      simp only [Option.mem_toList, Option.map_eq_some_iff, Option.filter_eq_some_iff] at hw
      obtain ⟨a, ⟨hpend, -⟩, rfl⟩ := hw
      exact ((hinv.found v).1 hv).dataOff_lt ((hinv.pend a).1 hpend) hasc

end

/-- Settles O32: after the whole clock list the scanner's list is told from its entries, and an ID that is pending
lies behind the sectors found before it. -/
theorem locatedSectorsExact : Obligations.LocatedSectorsExact := by
  unfold Obligations.LocatedSectorsExact
  intro p fmt clock data
  cases hd : fmt.density? with
  | none => simp [locateSectors, hd]
  | some d =>
    rw [locateSectors_eq_scanned hd]
    refine ⟨fun v => ?exact, fun hasc => scanned_found_pairwise hasc le_rfl⟩
    case exact =>
      rw [(scanned_inv _ data clock le_rfl).found v]
      constructor
      · rintro ⟨j, -, hclockj, ⟨m, hm, hge, hle⟩, ⟨i, hij, hclocki, hid, hquiet⟩, hadm⟩
        exact ⟨d, i, j, m, rfl, hij, hclocki, hclockj, hid, hm, hge, hle,
          fun k o hik hkj => hquiet k hkj hik o, admits_iff.1 hadm⟩
      · rintro ⟨d', i, j, m, hd', hij, hclocki, hclockj, hid, hm, hge, hle, hquiet, hadm⟩
        obtain rfl : d = d' := Option.some.inj hd'
        have hj : j < clock.length := (List.getElem?_eq_some_iff.1 hclockj).1
        exact ⟨j, hj, hclockj, ⟨m, hm, hge, hle⟩,
          ⟨i, hij, hclocki, hid, fun k hkj hik o => hquiet k o hik hkj⟩, admits_iff.2 hadm⟩

end Sys2Proof.Machine
end

section
/-! SUPPORT and proof of the token walk (46_track_buffer.md R198 to R203): each token as an operation, a track `Write`
as its tokens one after another, and what the walk over a whole stream holds. -/

namespace Sys2Proof.Machine

/-! ### The running CRC over its own bytes (R200) -/

/-- Where the bit is the register's top bit, the step is a shift (40_crc16.md R93). -/
theorem crcUpdateBit_of_top {c : Word16} {b : Bool} (h : b = c.getLsbD 15) : crcUpdateBit c b = c <<< 1 := by
  simp [crcUpdateBit, h]

theorem crcUpdateByte_of_top {c : Word16} {d : Byte} (h : ∀ i < 8, d.getLsbD i = c.getLsbD (8 + i)) :
    crcUpdateByte c d = c <<< 8 := by
  have hbit : ∀ k < 8, crcUpdateBit (c <<< k) (d.getLsbD (7 - k)) = c <<< (k + 1) := fun k hk => by
    rw [crcUpdateBit_of_top, BitVec.shiftLeft_add]
    rw [h (7 - k) (by omega), BitVec.getLsbD_shiftLeft]
    simp [show 8 + (7 - k) = 15 - k by omega, show ¬15 < k by omega]
  have hfirst : crcUpdateBit c (d.getLsbD 7) = c <<< 1 := by simpa using hbit 0 (by decide)
  simp only [crcUpdateByte, List.foldl_cons, List.foldl_nil, hfirst, hbit 1 (by decide), hbit 2 (by decide),
    hbit 3 (by decide), hbit 4 (by decide), hbit 5 (by decide), hbit 6 (by decide), hbit 7 (by decide)]

/-- The register is zero after its own two bytes. -/
theorem foldl_crcUpdateByte_crcBytes (c : Word16) : (crcBytes c).foldl crcUpdateByte c = 0x0000#16 := by
  have hhigh : crcUpdateByte c (c.extractLsb' 8 8) = c <<< 8 := crcUpdateByte_of_top fun i hi => by simp [hi]
  have hlow : crcUpdateByte (c <<< 8) (c.extractLsb' 0 8) = c <<< 8 <<< 8 := crcUpdateByte_of_top fun i hi => by
    simp [hi, show 8 + i < 16 by omega, BitVec.getLsbD_eq_getElem (show i < 16 by omega)]
  rw [crcBytes, List.foldl_cons, List.foldl_cons, List.foldl_nil, hhigh, hlow, ← BitVec.shiftLeft_add]
  simp

/-! ### One token -/

/-- The state with an open walk and its running CRC, as a token leaves it. -/
def walked (w : WalkRun) (s : State) : State := reply .nothing (leaveCrc w.2 { s with walk := some w.1 })

@[simp] theorem walked_cfg (w : WalkRun) (s : State) : (walked w s).cfg = s.cfg := rfl

@[simp] theorem walkNow_walked (w : WalkRun) (s : State) : walkNow (walked w s) = w := rfl

@[simp] theorem walked_walked (w w' : WalkRun) (s : State) : walked w' (walked w s) = walked w' s := rfl

theorem onWalk_eq (f : WalkRun → WalkRun) (s : State) : onWalk f s = .next (walked (f (walkNow s)) s) := rfl

section
variable {s : State} {w : Walk} {c : Word16} (h : walkNow s = (w, c))
include h

theorem onWalk_literal (b : Byte) :
    onWalk (tokenLiteral b) s = .next (tokenStored w [b] false (crcUpdateByte c b) s) := by
  rw [onWalk_eq, h]
  rfl

theorem onWalk_mark (b : Byte) :
    onWalk (tokenMark s.cfg b) s =
      .next (tokenStored w [b] true (crcUpdateByte (crcPreset s.cfg w.density) b) s) := by
  rw [onWalk_eq, h]
  rfl

theorem onWalk_crc :
    onWalk tokenCrc s = .next (tokenStored w (crcBytes c) false 0x0000#16 s) := by
  rw [onWalk_eq, h, tokenCrc, foldl_crcUpdateByte_crcBytes]
  rfl

end

/-- In FM the two sync tokens are literals, in MFM they store a sync byte (R202). -/
theorem tokenSync_eq (b sync : Byte) (w : WalkRun) :
    tokenSync b sync w = tokenLiteral (match w.1.density with | .fm => b | .mfm => sync) w := by
  rw [tokenSync]
  split <;> simp only [*]

theorem onWalk_sync {s : State} {w : Walk} {c : Word16} (h : walkNow s = (w, c)) (b sync : Byte) :
    onWalk (tokenSync b sync) s = onWalk (tokenLiteral (match w.density with | .fm => b | .mfm => sync)) s := by
  rw [onWalk_eq, onWalk_eq, tokenSync_eq, h]

/-- Settles O34: each token is a literal, a mark or the CRC-insert on the walk of the state. -/
theorem tokenOperations : Obligations.TokenOperations := by
  unfold Obligations.TokenOperations
  intro s w c hstart preset literal mark
  have h : walkNow s = (w, c) := by
    obtain ⟨hw, rfl⟩ | ⟨hw, rfl, rfl⟩ := hstart
    · rw [walkNow, hw]
    · rw [walkNow, hw]
      rfl
  have hlit : ∀ b, onWalk (tokenLiteral b) s = literal b := onWalk_literal h
  have hmark : ∀ b, onWalk (tokenMark s.cfg b) s = mark b := onWalk_mark h
  exact ⟨fun _ => hlit _, fun _ => hlit _, fun _ => hlit _, fun _ => hlit _, fun _ => hlit _, hlit _, hlit _,
    (onWalk_sync h _ _).trans (hlit _), (onWalk_sync h _ _).trans (hlit _), onWalk_crc h, fun _ => hmark _,
    hmark _, hmark _, hmark _⟩

/-! ### One byte of a stream -/

/-- An address-mark token (R201). -/
def MarkToken (b : Byte) : Prop := 0xF8#8 ≤ b ∧ b ≤ 0xFE#8

theorem markToken_iff {b : Byte} : MarkToken b ↔ 248 ≤ b.toNat ∧ b.toNat ≤ 254 := Iff.rfl

section
variable {p : Params} {b : Byte}

theorem tokenStep_of_mark (h : MarkToken b) (w : WalkRun) : tokenStep p w b = tokenMark p b w := by
  have hne : b ≠ 0xF7#8 := by
    rintro rfl
    exact absurd (markToken_iff.1 h).1 (by decide)
  rw [tokenStep, if_neg hne]
  exact if_pos h

theorem tokenStep_of_literal (h : b.toNat < 245 ∨ b = 0xFF#8) (w : WalkRun) :
    tokenStep p w b = tokenLiteral b w := by
  obtain hlt | rfl := h
  · have hne : ∀ x : Byte, 245 ≤ x.toNat → b ≠ x := by
      rintro x hx rfl
      omega
    have hmark : ¬(0xF8#8 ≤ b ∧ b ≤ 0xFE#8) := fun hm => by
      have := (markToken_iff.1 hm).1
      omega
    rw [tokenStep, if_neg (hne _ (by decide)), if_neg hmark, if_neg (hne _ (by decide)), if_neg (hne _ (by decide))]
  · rfl

theorem onWalk_tokenStep_literal {b' : Byte} (hb : b' = b) (h : b.toNat < 245 ∨ b = 0xFF#8) (s : State) :
    onWalk (tokenLiteral b') s = onWalk (tokenStep s.cfg · b) s :=
  congrArg (onWalk · s) (funext fun w => by rw [hb, tokenStep_of_literal h])

theorem onWalk_tokenStep_mark {b' : Byte} (hb : b' = b) (h : MarkToken b) (s : State) :
    onWalk (tokenMark s.cfg b') s = onWalk (tokenStep s.cfg · b) s :=
  congrArg (onWalk · s) (funext fun w => by rw [hb, tokenStep_of_mark h])

end

/-- Every token is one byte of the walk of a stream, by its row of the token table (R198; 30_encoding.md R78). -/
theorem exec_decodeToken (b : Byte) (s : State) :
    exec (decodeToken b) s = .next (walked (tokenStep s.cfg (walkNow s) b) s) := by
  rw [← onWalk_eq (tokenStep s.cfg · b)]
  obtain h | h | h | h | h | h | h := tokenRows_cover b
  · rw [decodeToken_lit00to7F h]
    exact onWalk_tokenStep_literal (append_extractLsb'_of_range h) (by omega) s
  · rw [decodeToken_lit80toBF h]
    exact onWalk_tokenStep_literal (append_extractLsb'_of_range h) (by omega) s
  · rw [decodeToken_litC0toDF h]
    exact onWalk_tokenStep_literal (append_extractLsb'_of_range h) (by omega) s
  · rw [decodeToken_litE0toEF h]
    exact onWalk_tokenStep_literal (append_extractLsb'_of_range h) (by omega) s
  · rw [decodeToken_litF0toF3 h]
    exact onWalk_tokenStep_literal (append_extractLsb'_of_range h) (by omega) s
  · rw [decodeToken_tokDam h]
    exact onWalk_tokenStep_mark (append_extractLsb'_of_range h) (markToken_iff.2 (by omega)) s
  · simp only [List.mem_cons, List.not_mem_nil, or_false] at h
    obtain rfl | rfl | rfl | rfl | rfl | rfl | rfl | rfl := h
    all_goals rfl

/-! ### A stream of tokens (R198) -/

/-- Tokens on an open walk are the walk over their bytes. -/
theorem runTokens_walked (raw : List Byte) (w : WalkRun) (s : State) :
    runTokens raw (walked w s) = .next (walked (raw.foldl (tokenStep s.cfg) w) s) := by
  induction raw generalizing w with
  | nil => rfl
  | cons b raw ih =>
    change raw.foldl _ (exec (decodeToken b) (walked w s)) = _
    rw [exec_decodeToken, walkNow_walked, walked_walked, walked_cfg]
    exact ih _

/-- The first token opens the walk, or goes on with the one that is open. -/
theorem runTokens_of_ne_nil {raw : List Byte} (h : raw ≠ []) (s : State) :
    runTokens raw s = .next (walked (raw.foldl (tokenStep s.cfg) (walkNow s)) s) := by
  obtain ⟨b, raw, rfl⟩ := List.exists_cons_of_ne_nil h
  change raw.foldl _ (exec (decodeToken b) s) = _
  rw [exec_decodeToken]
  exact runTokens_walked raw _ s

/-- What a token does to the walk: a mark is stored and its place recorded, any other token stores its bytes. -/
theorem tokenStep_cases (p : Params) (w : WalkRun) (b : Byte) :
    (MarkToken b ∧ tokenStep p w b = tokenMark p b w) ∨
      (¬MarkToken b ∧ ∃ stored c, tokenStep p w b = ({ w.1 with data := w.1.data ++ stored }, c) ∧
        stored.length = 1 + [b].count 0xF7#8) := by
  by_cases hmark : MarkToken b
  · exact .inl ⟨hmark, tokenStep_of_mark hmark w⟩
  refine .inr ⟨hmark, ?_⟩
  by_cases h7 : b = 0xF7#8
  · subst h7
    exact ⟨crcBytes w.2, _, rfl, rfl⟩
  · have hlit : ∃ x, tokenStep p w b = tokenLiteral x w := by
      have hmark' : ¬(0xF8#8 ≤ b ∧ b ≤ 0xFE#8) := hmark
      rw [tokenStep, if_neg h7, if_neg hmark', tokenSync_eq, tokenSync_eq]
      split_ifs <;> exact ⟨_, rfl⟩
    obtain ⟨x, hx⟩ := hlit
    exact ⟨[x], _, hx, by simp [h7]⟩

/-- What the walk over a stream holds (R199 to R202): its length, and a clock entry at each mark. -/
structure WalkHolds (d : Density) (raw : List Byte) (w : Walk) : Prop where
  density : w.density = d
  length : w.data.length = raw.length + raw.count 0xF7#8
  clock_rising : w.clock.Pairwise (· < ·)
  clock_length : w.clock.length = raw.countP fun b => decide (0xF8#8 ≤ b) && decide (b ≤ 0xFE#8)
  clock_mark : ∀ o ∈ w.clock, o % 8 = 0 ∧ ∃ m, w.data[o / 8]? = some m ∧ 0xF8#8 ≤ m ∧ m ≤ 0xFE#8

section
variable {d : Density} {raw : List Byte} {w : Walk} {o : Nat}

theorem WalkHolds.clock_lt (h : WalkHolds d raw w) (ho : o ∈ w.clock) : o < 8 * w.data.length := by
  obtain ⟨hal, m, hm, -⟩ := h.clock_mark o ho
  have := (List.getElem?_eq_some_iff.1 hm).1
  omega

/-- The entries stay at their marks when bytes are stored behind them. -/
theorem WalkHolds.clock_mark_append (h : WalkHolds d raw w) (stored : List Byte) (ho : o ∈ w.clock) :
    o % 8 = 0 ∧ ∃ m, (w.data ++ stored)[o / 8]? = some m ∧ 0xF8#8 ≤ m ∧ m ≤ 0xFE#8 := by
  obtain ⟨hal, m, hm, hrange⟩ := h.clock_mark o ho
  exact ⟨hal, m, by rw [List.getElem?_append_left (List.getElem?_eq_some_iff.1 hm).1, hm], hrange⟩

end

theorem WalkHolds.step {p : Params} {d : Density} {raw : List Byte} {w : WalkRun} (h : WalkHolds d raw w.1) (b : Byte) :
    WalkHolds d (raw ++ [b]) (tokenStep p w b).1 := by
  obtain ⟨hmark, hstep⟩ | ⟨hmark, stored, c, hstep, hlen⟩ := tokenStep_cases p w b
  · have hne : b ≠ 0xF7#8 := by
      rintro rfl
      exact absurd (markToken_iff.1 hmark).1 (by decide)
    obtain ⟨hge, hle⟩ := hmark
    rw [hstep, tokenMark]
    refine ⟨h.density, ?_, ?_, ?_, ?_⟩
    · have hcount : [b].count 0xF7#8 = 0 := by simp [hne]
      simp only [List.length_append, List.length_singleton, List.count_append, h.length, hcount]
      omega
    · simpa [List.pairwise_append, h.clock_rising] using fun o ho => h.clock_lt ho
    · simp [h.clock_length, hge, hle]
    · intro o ho
      rcases List.mem_append.1 ho with ho | ho
      · exact h.clock_mark_append [b] ho
      · obtain rfl := List.mem_singleton.1 ho
        exact ⟨by omega, b, by simp, hge, hle⟩
  · rw [hstep]
    refine ⟨h.density, ?_, h.clock_rising, ?_, fun o ho => h.clock_mark_append stored ho⟩
    · simp only [List.length_append, h.length, hlen, List.count_append, List.length_singleton]
      omega
    · simpa [h.clock_length] using not_and.1 hmark

theorem walkStream_holds (p : Params) (d : Density) (raw : List Byte) : WalkHolds d raw (walkStream p d raw).1 := by
  induction raw using List.reverseRecOn with
  | nil => exact ⟨rfl, rfl, .nil, rfl, by simp [walkStream, walkStart]⟩
  | append_singleton raw b ih =>
    rw [walkStream, List.foldl_concat]
    exact ih.step b

/-! ### Track `Write` -/

theorem TrackFormat.format_of_density? {fmt : TrackFormat} {d : Density} (h : fmt.density? = some d) :
    d.format = fmt := by
  cases fmt <;> cases h <;> rfl

/-- The state a track `Write` leaves at the end of its walk: the track of the walk in place, the running CRC in the
register, the walk closed (R203; notes/assumptions/14.md). -/
def trackWritten (r : TrackRef) (w : WalkRun) (s : State) : State :=
  { s with
    images := (s.putTrack r (walkTrack s.cfg w.1)).images
    crc := w.2, crcReady := true, walk := none, result := .nothing }

section
variable {s : State} {r : TrackRef} {t : Track}

theorem exec_trackWrite {fmt : TrackFormat} {d : Density} (ht : s.track? r = some t) (hd : fmt.density? = some d)
    (raw : List Byte) :
    exec (.trackWrite r fmt raw) s = .next (trackWritten r (walkStream s.cfg d raw) s) := by
  refine withDensity_eq_next.2 ⟨d, hd, writeTrackAt_eq_next.2 ⟨⟨t, ht⟩, ?_⟩⟩
  rw [putTrack_eq (reply .nothing s), putTrack_images_congr (s := s) (s' := reply .nothing s) ⟨rfl, rfl⟩]
  rfl

theorem trackWritten_frame (ht : s.track? r = some t) (w : WalkRun) :
    sameElsewhere r s (trackWritten r w s) ∧ trackIs r (walkTrack s.cfg w.1) (trackWritten r w s) :=
  frame_of_installed ht rfl rfl

end

/-- Settles O33: the track that is installed is that of the walk over the stream. -/
theorem trackWriteOperation : Obligations.TrackWriteOperation := by
  unfold Obligations.TrackWriteOperation
  intro s r t fmt d raw ht hd
  have hw := walkStream_holds s.cfg d raw
  have hfmt : (walkStream s.cfg d raw).1.density.format = fmt := by
    rw [hw.density, TrackFormat.format_of_density? hd]
  obtain ⟨hframe, htrack⟩ := trackWritten_frame ht (walkStream s.cfg d raw)
  refine ⟨_, _, exec_trackWrite ht hd raw, rfl, hframe, htrack, rfl, hfmt, hw.length, hw.clock_rising,
    hw.clock_length, hw.clock_mark, ?sectors⟩
  case sectors => exact congrArg (locateSectors s.cfg · _ _) hfmt

/-- Settles O35: the tokens make the walk over the stream, and that is the walk a track `Write` installs. -/
theorem tokenStreamIsTrackWrite : Obligations.TokenStreamIsTrackWrite := by
  unfold Obligations.TokenStreamIsTrackWrite
  intro s r t d raw ht hne hstart
  have hwalk : walkNow s = walkStart s.cfg d := by
    obtain ⟨hw, rfl⟩ | ⟨hw, hcrc⟩ := hstart
    · rw [walkNow, hw]
    · rw [walkNow, hw, hcrc]
      rfl
  have hrun : runTokens raw s = .next (walked (walkStream s.cfg d raw) s) := by
    rw [runTokens_of_ne_nil hne, hwalk, walkStream]
  have hw := walkStream_holds s.cfg d raw
  have hd : d.format.density? = some d := by cases d <;> rfl
  have htrack := (trackWritten_frame ht (walkStream s.cfg d raw)).2 r ⟨rfl, rfl, rfl⟩
  exact ⟨(walkStream s.cfg d raw).1, (walkStream s.cfg d raw).2, _, _, hrun, hw.density, exec_trackWrite ht hd raw,
    rfl, htrack, congrArg Density.format hw.density, rfl, rfl⟩

end Sys2Proof.Machine
end

section
/-! SUPPORT and proof of the FM codec's round trip (44_fm_mfm_encoder.md R170). It is the round trip of a list of one
fragment: in the stream of such a fragment the detector reports nowhere but at the mark. In the phase of the fragment
every clock bit is set but two or three of the mark cell's, and a mark cell asks for a first and a last one of these at
their places; in the other phase a mark cell asks for a set data bit before the mark or a missing clock bit behind
it. -/

namespace Sys2Proof.Machine

/-- What all six FM mark cells have in common, bit 15 first in time (30_encoding.md R76): a first bit, the missing clock
bits at places 4 and 8, and a 0 among the last three data bits. -/
theorem syncTestFm_zeros {reg : Word16} {filled : Nat} {hunting : Bool} {cell : Nat} {m : Byte × Byte}
    (h : syncTestFm reg filled hunting cell = some m) :
    reg.getLsbD 15 = true ∧ reg.getLsbD 11 = false ∧ reg.getLsbD 7 = false ∧
      ∃ i, i < 16 ∧ 11 ≤ i ∧ i % 2 = 1 ∧ reg.getLsbD (15 - i) = false := by
  simp only [syncTestFm] at h
  split_ifs at h <;> subst reg <;> exact ⟨by decide, by decide, by decide, by decide⟩

/-- The clock byte of a recognised FM mark lacks bits only from 3 to 5 (R76). -/
theorem markClock_zeros {c : Int} {b : Byte} (h : (c, b) ∈ marksOf .fm) {j : Nat} (hj : j < 8)
    (hz : (BitVec.ofInt 8 c).getLsbD (7 - j) = false) : 2 ≤ j ∧ j ≤ 4 := by
  have hall : ∀ m ∈ marksOf .fm, ∀ j < 8, (BitVec.ofInt 8 m.1).getLsbD (7 - j) = false → 2 ≤ j ∧ j ≤ 4 := by decide
  exact hall _ h j hj hz

section
variable {f : Fragment} {b : Byte} {p x : Nat}

/-- In the phase of the fragment a 0 of the stream is a missing clock bit of the mark cell. -/
theorem missingClock_place (henc : encodable [f] = true)
    (hmark : (f.clock, b) ∈ marksOf .fm) (hphase : p % 2 = f.bitOffsetStart % 2)
    (hz : (encodeFragments .fm [f])[p]? = some false) :
    f.bitOffsetStart + 4 ≤ p ∧ p ≤ f.bitOffsetStart + 8 := by
  rcases Nat.lt_or_ge p f.bitOffsetStart with hlead | hge
  · have hfill := getElem?_filler (d := .fm) (before := []) (after := []) henc (Nat.zero_le p) hlead
    have heven : fillerBit none f.bitOffsetStart p = true := decide_eq_true (by omega)
    exact absurd (heven.symm.trans (Option.some.inj (hfill.symm.trans hz))) (by decide)
  have hok := (encodable_iff.1 henc).1 f List.mem_cons_self
  have hholds := holdsBytes_encodeFragments (d := .fm) henc (List.mem_cons_self (a := f))
  have hlen : (encodeFragments .fm [f]).length = f.bitOffsetEnd := length_encodeFragments henc
  have hp : p < f.bitOffsetEnd := hlen ▸ (List.getElem?_eq_some_iff.1 hz).1
  obtain ⟨k, j, hj, rfl⟩ : ∃ k j, j < 8 ∧ p = f.bitOffsetStart + 16 * k + 2 * j :=
    ⟨(p - f.bitOffsetStart) / 16, (p - f.bitOffsetStart) % 16 / 2, by omega, by omega⟩
  have hends := hok.ends
  have hk : f.byteData[k]? = some _ := List.getElem?_eq_getElem (by omega)
  have hclock := Option.some.inj ((hholds.clockBit hk hj).symm.trans hz)
  rcases Nat.eq_zero_or_pos k with rfl | hpos
  · rw [if_pos rfl, explicitClock_of_ne (ne_neg_one_of_mem_marksOf hmark)] at hclock
    obtain ⟨hlo, hhi⟩ := markClock_zeros hmark hj hclock
    omega
  · rw [if_neg hpos.ne'] at hclock
    have hones : ∀ j < 8, (0xFF#8).getLsbD (7 - j) = true := by decide
    exact absurd ((hones j hj).symm.trans hclock) (by decide)

/-- In the other phase the lead has no bit set (R162). -/
theorem lead_dataBit (henc : encodable [f] = true) (hlead : p < f.bitOffsetStart)
    (hphase : p % 2 ≠ f.bitOffsetStart % 2) : (encodeFragments .fm [f])[p]? = some false := by
  have hfill := getElem?_filler (d := .fm) (before := []) (after := []) henc (Nat.zero_le p) hlead
  have hodd : fillerBit none f.bitOffsetStart p = false := decide_eq_false (by omega)
  exact hfill.trans (congrArg some hodd)

/-- The detector reports nowhere in the stream of one FM fragment but at its mark. -/
theorem fm_report_place (henc : encodable [f] = true)
    (hmark : (f.clock, b) ∈ marksOf .fm) (hx : x + 16 ≤ (encodeFragments .fm [f]).length) {hunting : Bool}
    {cell : Nat} {m : Byte × Byte}
    (h : syncTest .fm (window (encodeFragments .fm [f]) x) 16 hunting cell = some m) : x = f.bitOffsetStart := by
  obtain ⟨hfirst, h4, h8, i, hi, hge, hodd, hlast⟩ := syncTestFm_zeros (hunting := hunting) (cell := cell) h
  have hplace : ∀ j < 16, (x + j) % 2 = f.bitOffsetStart % 2 →
      (window (encodeFragments .fm [f]) x).getLsbD (15 - j) = false →
      f.bitOffsetStart + 4 ≤ x + j ∧ x + j ≤ f.bitOffsetStart + 8 := fun j hj hphase hz =>
    missingClock_place henc hmark hphase ((getElem?_eq_window hx hj).trans (congrArg some hz))
  by_cases hphase : x % 2 = f.bitOffsetStart % 2
  · have := hplace 4 (by decide) (by omega) h4
    have := hplace 8 (by decide) (by omega) h8
    omega
  · have := hplace i hi (by omega) hlast
    have hlead : x < f.bitOffsetStart := by omega
    have hset := (lead_dataBit henc hlead hphase).symm.trans (getElem?_eq_window hx (i := 0) (by decide))
    exact absurd (Option.some.inj hset) (by rw [hfirst]; decide)

end

/-- Settles O28: the round trip of a list of one fragment, whose stream is silent but at the mark. -/
theorem fmCodecRoundTrip : Obligations.FmCodecRoundTrip := by
  unfold Obligations.FmCodecRoundTrip
  intro lead clock mark bytes hmark f
  have hclock : clock = 0xC7 ∨ clock = 0xD7 :=
    (by decide : ∀ m ∈ marksOf .fm, m.1 = 0xC7 ∨ m.1 = 0xD7) _ hmark
  have henc : encodable [f] = true :=
    encodable_iff.2 ⟨List.forall_mem_singleton.2 ⟨by simp [f], rfl, by simp only [f]; omega, by simp only [f]; omega⟩,
      List.pairwise_singleton ..⟩
  refine codecRoundTrip .fm [f] henc (by simpa using ⟨mark, rfl, hmark⟩) ?close ?silent
  case close => exact fun before after g g' h => absurd (congrArg List.length h) (by simp; omega)
  case silent =>
    refine List.all_eq_true.2 fun x hx => ?_
    have hx : x + 16 ≤ (encodeFragments .fm [f]).length := by
      have := List.mem_range.1 hx
      omega
    by_cases hstart : x = f.bitOffsetStart
    · simp [hstart]
    · have hnone : reportAt .fm [f] (encodeFragments .fm [f]) x = none := by
        refine Option.eq_none_iff_forall_ne_some.2 fun m hm => hstart ?_
        unfold reportAt at hm
        split at hm
        · exact fm_report_place henc hmark hx hm
        · split at hm
          · exact fm_report_place henc hmark hx hm
          · exact fm_report_place henc hmark hx hm
      simp [hnone]

end Sys2Proof.Machine
end

section
/-! SUPPORT and proofs of the CRC arithmetic (40_crc16.md R93 to R106). One bit step is linear over GF(2) and loses
nothing of the register; bytes and lists of bytes inherit both. With what the register does over its own top bits,
which is a shift, the table form and the residue follow. -/

namespace Sys2Proof.Machine

/-! ### One step -/

/-- Each bit of the register after a step: its lower neighbour, and the feedback at the places of the polynomial
(40_crc16.md R93). -/
theorem getLsbD_crcUpdateBit (c : Word16) (b : Bool) {i : Nat} (hi : i < 16) :
    (crcUpdateBit c b).getLsbD i =
      ((decide (0 < i) && c.getLsbD (i - 1)) ^^ ((c.getLsbD 15 ^^ b) && (0x1021#16).getLsbD i)) := by
  have hshift : (c <<< 1).getLsbD i = (decide (0 < i) && c.getLsbD (i - 1)) := by
    rw [BitVec.getLsbD_shiftLeft]
    grind
  rw [crcUpdateBit_eq, ← hshift]
  cases c.getLsbD 15 ^^ b with
  | true => simp only [if_true, BitVec.getLsbD_xor, Bool.true_and]
  | false => simp only [Bool.false_eq_true, if_false, Bool.false_and, Bool.xor_false]

/-- A step is linear in register and bit together (R106). -/
theorem crcUpdateBit_xor (a c : Word16) (x y : Bool) :
    crcUpdateBit (a ^^^ c) (x ^^ y) = crcUpdateBit a x ^^^ crcUpdateBit c y := by
  refine BitVec.eq_of_getLsbD_eq fun i hi => ?_
  simp only [BitVec.getLsbD_xor, getLsbD_crcUpdateBit _ _ hi, Bool.and_xor_distrib_left, Bool.and_xor_distrib_right]
  simp only [Bool.xor_assoc, Bool.xor_left_comm, Bool.xor_comm]

/-- A step is undone: bit 0 of the result is the feedback, and with it the top bit that was shifted out. -/
theorem crcUpdateBit_injective (b : Bool) : Function.Injective (crcUpdateBit · b) := by
  intro c c' h
  have hbit : ∀ i < 16, (crcUpdateBit c b).getLsbD i = (crcUpdateBit c' b).getLsbD i := fun i _ =>
    congrArg (·.getLsbD i) h
  have hfeedback : (c.getLsbD 15 ^^ b) = (c'.getLsbD 15 ^^ b) := by
    have h0 := hbit 0 (by decide)
    rw [getLsbD_crcUpdateBit _ _ (by decide), getLsbD_crcUpdateBit _ _ (by decide)] at h0
    simpa using h0
  refine BitVec.eq_of_getLsbD_eq fun i hi => ?_
  rcases Nat.lt_or_eq_of_le (Nat.le_of_lt_succ hi) with hlt | rfl
  · have hnext := hbit (i + 1) (by omega)
    rw [getLsbD_crcUpdateBit _ _ (by omega), getLsbD_crcUpdateBit _ _ (by omega), hfeedback] at hnext
    simpa using hnext
  · simpa using hfeedback

/-! ### One byte -/

theorem crcUpdateByte_xor (a c : Word16) (x y : Byte) :
    crcUpdateByte (a ^^^ c) (x ^^^ y) = crcUpdateByte a x ^^^ crcUpdateByte c y := by
  simp only [crcUpdateByte, List.foldl_cons, List.foldl_nil, BitVec.getLsbD_xor, crcUpdateBit_xor]

theorem crcUpdateByte_injective (d : Byte) : Function.Injective (crcUpdateByte · d) := by
  have hfold (l : List Nat) : Function.Injective (fun c => l.foldl (fun c i => crcUpdateBit c (d.getLsbD i)) c) := by
    induction l with
    | nil => exact Function.injective_id
    | cons i l ih => exact ih.comp (crcUpdateBit_injective (d.getLsbD i))
  exact hfold _

theorem crcUpdateByte_zero : crcUpdateByte 0x0000#16 0x00#8 = 0x0000#16 := by decide

/-- The byte step by what the byte differs from the top of the register: the step over the top byte itself is a
shift. -/
theorem crcUpdateByte_eq_shift_xor (c : Word16) (d : Byte) :
    crcUpdateByte c d = (c <<< 8) ^^^ crcUpdateByte 0x0000#16 (c.extractLsb' 8 8 ^^^ d) := by
  have htop : crcUpdateByte c (c.extractLsb' 8 8) = c <<< 8 := crcUpdateByte_of_top fun i hi => by simp [hi]
  rw [← htop, ← crcUpdateByte_xor, BitVec.xor_zero, ← BitVec.xor_assoc, BitVec.xor_self, BitVec.zero_xor]

/-! ### Lists of bytes -/

theorem crcOver_append (c : Word16) (l l' : List Byte) : crcOver c (l ++ l') = crcOver (crcOver c l) l' :=
  List.foldl_append

theorem crcOver_cons (c : Word16) (b : Byte) (l : List Byte) : crcOver c (b :: l) = crcOver (crcUpdateByte c b) l :=
  rfl

theorem crcOver_crcBytes (c : Word16) : crcOver c (crcBytes c) = 0x0000#16 := foldl_crcUpdateByte_crcBytes c

/-- The CRC is linear in preset and message together (R106). -/
theorem crcOver_xor (a c : Word16) {l l' : List Byte} (h : l.length = l'.length) :
    crcOver (a ^^^ c) (List.zipWith (· ^^^ ·) l l') = crcOver a l ^^^ crcOver c l' := by
  induction l generalizing a c l' with
  | nil =>
    obtain rfl := List.eq_nil_of_length_eq_zero h.symm
    rfl
  | cons b l ih =>
    obtain ⟨b', l', rfl⟩ := List.exists_cons_of_length_eq_add_one h.symm
    rw [List.zipWith_cons_cons, crcOver_cons, crcUpdateByte_xor]
    exact ih _ _ (Nat.succ.inj h)

theorem zipWith_xor_zeros (l : List Byte) : List.zipWith (· ^^^ ·) l (List.replicate l.length 0x00#8) = l := by
  induction l with
  | nil => rfl
  | cons b l ih => rw [List.length_cons, List.replicate_succ, List.zipWith_cons_cons, ih, BitVec.xor_zero]

theorem crcOver_zeros (n : Nat) : crcOver 0x0000#16 (List.replicate n 0x00#8) = 0x0000#16 := by
  induction n with
  | zero => rfl
  | succ n ih => rw [List.replicate_succ, crcOver_cons, crcUpdateByte_zero, ih]

theorem crcOver_injective (l : List Byte) : Function.Injective (crcOver · l) := by
  induction l with
  | nil => exact Function.injective_id
  | cons b l ih => exact ih.comp (crcUpdateByte_injective b)

/-- Settles O14: linearity and injectivity go from the bit to the byte to the list; an injection of a finite type is a
bijection. -/
theorem crcLinearity : Obligations.CrcLinearity := by
  unfold Obligations.CrcLinearity
  refine ⟨fun a b m => ?preset, fun m1 m2 h => ?message, crcOver_zeros, fun d =>
    Finite.injective_iff_bijective.1 (crcUpdateByte_injective d)⟩
  case preset =>
    have h := crcOver_xor a b (l := m) (l' := List.replicate m.length 0x00#8) (by simp)
    rwa [zipWith_xor_zeros] at h
  case message => exact crcOver_xor 0x0000#16 0x0000#16 h

/-- Settles O15: the byte step from zero over one bit is not zero, and what follows keeps registers apart. -/
theorem crcDetectsSingleBit : Obligations.CrcDetectsSingleBit := by
  unfold Obligations.CrcDetectsSingleBit
  intro preset before after b k hk h
  rw [crcOver_append, crcOver_append, crcOver_cons, crcOver_cons] at h
  have hbyte := crcOver_injective after h
  have hlinear := crcUpdateByte_xor (crcOver preset before) 0x0000#16 b (BitVec.twoPow 8 k)
  rw [BitVec.xor_zero, hbyte] at hlinear
  have hzero : crcUpdateByte 0x0000#16 (BitVec.twoPow 8 k) = 0x0000#16 :=
    BitVec.xor_right_inj _ |>.1 (hlinear.symm.trans (BitVec.xor_zero).symm)
  exact (by decide : ∀ k < 8, crcUpdateByte 0x0000#16 (BitVec.twoPow 8 k) ≠ 0x0000#16) k hk hzero

/-! ### The residue (R101) -/

/-- Two bytes at the end are taken off the register before two bytes of zeros. -/
theorem crcOver_pair (c : Word16) (hi lo : Byte) :
    crcOver c [hi, lo] = crcOver (c ^^^ (hi ++ lo : Word16)) [0x00#8, 0x00#8] := by
  have hbytes : crcBytes (hi ++ lo : Word16) = [hi, lo] := by
    rw [crcBytes, BitVec.extractLsb'_append_eq_left, BitVec.extractLsb'_append_eq_right]
  have hown : crcOver (hi ++ lo : Word16) [hi, lo] = 0x0000#16 := hbytes ▸ crcOver_crcBytes _
  have h := crcOver_xor c (hi ++ lo : Word16) (l := [hi, lo]) (l' := [hi, lo]) rfl
  simp only [List.zipWith_cons_cons, List.zipWith_nil_left, BitVec.xor_self] at h
  rw [h, hown, BitVec.xor_zero]

theorem crcOver_pair_eq_zero_iff (c : Word16) (hi lo : Byte) :
    crcOver c [hi, lo] = 0x0000#16 ↔ [hi, lo] = crcBytes c := by
  constructor
  · intro h
    have hzeros : crcOver 0x0000#16 [0x00#8, 0x00#8] = 0x0000#16 := crcOver_zeros 2
    have hc : c ^^^ (hi ++ lo : Word16) = 0x0000#16 :=
      crcOver_injective [0x00#8, 0x00#8] ((crcOver_pair c hi lo).symm.trans (h.trans hzeros.symm))
    have hc : c = (hi ++ lo : Word16) := BitVec.xor_eq_zero_iff.1 hc
    rw [hc, crcBytes, BitVec.extractLsb'_append_eq_left, BitVec.extractLsb'_append_eq_right]
  · intro h
    rw [h, crcOver_crcBytes]

/-- Settles O13: the register is zero after its own bytes, and after no other two. -/
theorem crcResidue : Obligations.CrcResidue := by
  unfold Obligations.CrcResidue
  refine ⟨fun preset bytes => ?appended, fun preset bytes hi lo => ?trailing, by decide +kernel⟩
  case appended => rw [crcAppend, crcOver_append, crcOver_crcBytes]
  case trailing => rw [crcOver_append, crcOver_pair_eq_zero_iff]

/-! ### The table (R95, R96) -/

theorem crcTable_eq (i : Byte) : crcTable i = crcUpdateByte 0x0000#16 i := by
  revert i
  decide +kernel

/-- Settles O11: the byte step is a shift and a step from zero, which is the table entry. -/
theorem crcTableForm : Obligations.CrcTableForm := by
  unfold Obligations.CrcTableForm
  intro crc d
  rw [crcUpdateByte_eq_shift_xor, crcTable_eq]
  congr

/-- Settles O12: eight steps on an index in the top byte are a byte of zeros over it, and that is the byte of the index
over zero. -/
theorem crcTableEntries : Obligations.CrcTableEntries := by
  unfold Obligations.CrcTableEntries
  intro i
  refine ⟨?steps, crcTable_eq i⟩
  case steps =>
    have hfold : (List.range 8).foldl (fun (c : Word16) _ => if c.getLsbD 15 then (c <<< 1) ^^^ 0x1021#16 else c <<< 1)
        ((i.setWidth 16 : Word16) <<< 8) = crcUpdateByte ((i.setWidth 16 : Word16) <<< 8) 0x00#8 := by
      simp only [crcUpdateByte_eq, BitVec.getLsbD_zero, Bool.xor_false]
      rfl
    have hshift : (i.setWidth 16 : Word16) <<< 8 <<< 8 = 0x0000#16 := by
      rw [← BitVec.shiftLeft_add, BitVec.shiftLeft_eq_zero (by decide)]
    have htop : ((i.setWidth 16 : Word16) <<< 8).extractLsb' 8 8 = i :=
      BitVec.eq_of_getLsbD_eq fun j hj => by
        simp [hj, show 8 + j < 16 by omega]
    rw [hfold, crcUpdateByte_eq_shift_xor, hshift, htop, BitVec.xor_zero, BitVec.zero_xor, crcTable_eq]

/-! ### The operations (R97, R100) -/

/-- `CrcUpdateByte` over a list, each byte an operation of its own. -/
theorem foldl_exec_crcUpdateByte (bytes : List Byte) (c : Word16) (s : State) :
    bytes.foldl (fun o d => andThen o (exec (.crcUpdateByte d))) (.next (reply .nothing (leaveCrc c s))) =
      .next (reply .nothing (leaveCrc (crcOver c bytes) s)) := by
  induction bytes generalizing c with
  | nil => rfl
  | cons b bytes ih => exact ih (crcUpdateByte c b)

/-- Settles O10: the byte steps one by one are the fold that the two operations compute. -/
theorem crcOverAndAppend : Obligations.CrcOverAndAppend := by
  unfold Obligations.CrcOverAndAppend
  exact fun s preset bytes => ⟨crcOver preset bytes, foldl_exec_crcUpdateByte bytes preset s, rfl, rfl⟩

end Sys2Proof.Machine
end

section
/-! SUPPORT and proofs of the unit operations that change something: `DataModified` (40_crc16.md R104), sector `Write`
(45_sector_framer.md R182) and `next()` of a reader (41_bitstream.md R112). The first two install a track whose bytes
one or two memory writes give; what those writes leave unchanged is what the statements ask for. -/

namespace Sys2Proof.Machine

/-! ### The bytes of an installed track -/

section
variable {s s' : State} {r : TrackRef} {t t' : Track}

theorem readByte_eq (ht : s.track? r = some t) (a : Nat) : readByte s r a = t.data[a]? := by
  rw [readByte, ht]

/-- A byte of the track that is equal in the installed track is read as before. -/
theorem readByte_installed (ht : s.track? r = some t) (h : trackIs r t' s') {a : Nat} (ha : t'.data[a]? = t.data[a]?) :
    readByte s' r a = readByte s r a := by
  rw [readByte_eq ht, readByte_eq (h r ⟨rfl, rfl, rfl⟩), ha]

/-- An operation that installs a track and leaves a CRC in the register changes nothing else. -/
theorem reply_leaveCrc_putTrack_eq (c : Word16) (t' : Track) :
    reply .nothing (leaveCrc c (s.putTrack r t')) =
      { s with images := (s.putTrack r t').images, crc := c, crcReady := true, result := .nothing } :=
  congrArg (fun x => reply .nothing (leaveCrc c x)) (putTrack_eq s r t')

end

/-! ### `DataModified` -/

theorem exec_dataModified {s : State} {r : TrackRef} {v : View} {t : Track} {d : Density} {w : Track × Word16}
    (ht : s.track? r = some t) (hv : v ∈ t.sector) (hd : t.format.density? = some d)
    (h : dataModified s.cfg d t v = some w) :
    exec (.dataModified r v) s = .next (reply .nothing (leaveCrc w.2 (s.putTrack r w.1))) := by
  change withView r v s _ = _
  rw [withView_of_mem ht hv, withDensity, hd, orRefuse_some, h, orRefuse_some]

/-- Settles O17: one write of two bytes behind the data bytes, which is behind the ID field too. -/
theorem dataModifiedStoresCrc : Obligations.DataModifiedStoresCrc := by
  unfold Obligations.DataModifiedStoresCrc
  intro s r v t d ht hv hd hin hid
  obtain ⟨data', hwrite, hmod⟩ := InBounds.dataModified_eq (p := s.cfg) (d := d) (viewInBounds_iff.1 hin)
  have hbehind : v.idOff + 7 ≤ v.dataOff + sizeAt t.data v + 1 := by omega
  have hstored := storedCrc_memWrite hwrite
  have hfield : slice data' v.dataOff (1 + sizeAt t.data v) = slice t.data v.dataOff (1 + sizeAt t.data v) :=
    slice_memWrite_before hwrite (by omega)
  have hgood : dataGood s.cfg d data' v = true := by
    rw [dataGood, sizeAt_memWrite hwrite hbehind, hfield]
    exact hstored
  obtain ⟨helse, hthere⟩ := frame_of_installed (t' := { t with data := data', dirty := true }) ht
    (s' := reply .nothing (leaveCrc _ (s.putTrack r _))) (putTrack_drives ..) rfl
  exact ⟨_, _, exec_dataModified ht hv hd hmod, reply_leaveCrc_putTrack_eq _ _, helse, hthere, rfl,
    memWrite_length hwrite, hstored,
    fun a ha => readByte_installed ht hthere (memWrite_get_outside hwrite ha), hgood, idGood_memWrite hwrite hbehind⟩

/-! ### Sector `Write` -/

/-- The statement's image, filled up and cut, is the model's (R182). -/
theorem writeImage_eq (n : Nat) (mark : Byte) (buf : List Byte) : writeImage n mark buf = sectorImage n mark buf := by
  have hpad : min (n - buf.length) n = n - buf.length := Nat.min_eq_left (Nat.sub_le ..)
  rw [writeImage, sectorImage, List.take_append, List.take_replicate, hpad]

@[simp] theorem length_crcBytes (c : Word16) : (crcBytes c).length = 2 := rfl

/-- The two writes of a `Write` that changes a byte store the image and the CRC over it, and nothing beyond them. -/
theorem sectorImage_stored {p : Params} {d : Density} {data stored data' : List Byte} {v : View} {mark : Byte}
    {buf : List Byte} (hid : v.idOff + 7 ≤ v.dataOff)
    (himage : memWrite data v.dataOff (sectorImage (sizeAt data v) mark buf) = some stored)
    (hcrc : memWrite stored (v.dataOff + sizeAt stored v + 1) (crcBytes (dataCrc p d stored v)) = some data') :
    slice data' v.dataOff (1 + sizeAt data v) = sectorImage (sizeAt data v) mark buf ∧
      storedCrc data' (v.dataOff + sizeAt data v + 1)
        (crcOver (crcPreset p d) (sectorImage (sizeAt data v) mark buf)) = true ∧
      ∀ a, a < v.dataOff ∨ v.dataOff + sizeAt data v + 3 ≤ a → data'[a]? = data[a]? := by
  have hsize : sizeAt stored v = sizeAt data v := sizeAt_memWrite himage hid
  have hsame := slice_memWrite_same himage
  rw [length_sectorImage] at hsame
  have hcrcStored := storedCrc_memWrite hcrc
  rw [hsize, dataCrc, hsize, hsame] at hcrcStored
  refine ⟨(slice_memWrite_before hcrc (by omega)).trans hsame, hcrcStored, fun a ha => ?outside⟩
  case outside =>
    have hfirst : stored[a]? = data[a]? := memWrite_get_outside himage (by rw [length_sectorImage]; omega)
    exact (memWrite_get_outside hcrc (by rw [length_crcBytes]; omega)).trans hfirst

/-- A `Write` on the state that changes a byte, as an installed track and a CRC left in the register. -/
theorem exec_sectorWrite_of_stored {s : State} {r : TrackRef} {v : View} {t t' : Track} {d : Density} {mark : Byte}
    {buf : List Byte} {c : Word16} (ht : s.track? r = some t) (hv : v ∈ t.sector) (hd : t.format.density? = some d)
    (h : sectorWrite s.cfg d t v mark buf = some (t', some c)) :
    exec (.sectorWrite r v mark buf) s = .next (reply .nothing (leaveCrc c (s.putTrack r t'))) := by
  rw [exec_sectorWrite ht hv hd h, reply_leaveCrc_putTrack_eq, putTrack_eq (reply .nothing s),
    putTrack_images_congr (s := s) (s' := reply .nothing s) ⟨rfl, rfl⟩]
  rfl

/-- Settles O30, by whether the track holds the image already. -/
theorem sectorWriteOperation : Obligations.SectorWriteOperation := by
  unfold Obligations.SectorWriteOperation
  intro s r v t d mark buf ht hv hd hin hid
  have hb := viewInBounds_iff.1 hin
  simp only [writeImage_eq]
  refine ⟨fun himage => exec_sectorWrite_of_holds ht hv hd hb himage.symm, fun himage => ?stored⟩
  case stored =>
    obtain ⟨stored, data', hwrite, hcrc, hmodel⟩ :=
      sectorWrite_of_not_holds (p := s.cfg) (d := d) hb hid (Ne.symm himage)
    obtain ⟨himageStored, hcrcStored, hother⟩ := sectorImage_stored hid hwrite hcrc
    obtain ⟨helse, hthere⟩ := frame_of_installed (t' := { t with data := data', dirty := true }) ht
      (s' := reply .nothing (leaveCrc (dataCrc s.cfg d stored v) (s.putTrack r _))) (putTrack_drives ..) rfl
    exact ⟨_, _, exec_sectorWrite_of_stored ht hv hd hmodel, reply_leaveCrc_putTrack_eq _ _, helse, hthere, rfl,
      (memWrite_length hcrc).trans (memWrite_length hwrite), himageStored, hcrcStored,
      fun a ha => readByte_installed ht hthere (hother a ha)⟩

/-! ### `next()` -/

theorem exec_bitNext {s : State} {h : Nat} {r r' : BitReader} {b : Option Bool} (hr : s.readers[h]? = some r)
    (hnext : r.next? = some (b, r')) : exec (.bitNext h) s = .next (reply (.bit b) (s.putReader h r')) := by
  change withReader h s _ = _
  rw [withReader_of_getElem? hr, hnext, orRefuse_some]

theorem putReader_self {s : State} {h : Nat} {r : BitReader} (hr : s.readers[h]? = some r) : s.putReader h r = s := by
  obtain ⟨hlt, rfl⟩ := List.getElem?_eq_some_iff.1 hr
  rw [State.putReader, List.set_getElem_self]

/-- Settles O19, by whether a logical bit is left. -/
theorem bitStreamNext : Obligations.BitStreamNext := by
  unfold Obligations.BitStreamNext
  refine fun s h r hr _ hbuf => ⟨fun hend => ?eof, fun hleft => exec_bitNext hr (BitReader.next?_of_left hbuf hleft)⟩
  case eof =>
    have hnext : r.next? = some (none, r) := (BitReader.next?_inBuffer hbuf).trans (if_pos hend)
    rw [exec_bitNext hr hnext, putReader_self hr]
    rfl

end Sys2Proof.Machine
end

section
/-! SUPPORT and proof of the port addresses (20_memory.md R44; 30_encoding.md R68): an address reaches a port where
the two agree but for bit 0, and ports that can be told apart are not reached by one address. -/

namespace Sys2Proof

/-- Bit 0 may be masked off or set: the rest of the address is the same (R68). -/
theorem portKey_eq_iff {a b : Word16} : portKey a = portKey b ↔ a ||| 1#16 = b ||| 1#16 := by
  have hset (a : Word16) : a ||| 1#16 = portKey a ||| 1#16 := by
    have hcomplement : (0xFFFE#16 : Word16) = ~~~1#16 := by decide
    rw [portKey, hcomplement]
    refine BitVec.eq_of_getLsbD_eq fun i hi => ?_
    simp only [BitVec.getLsbD_or, BitVec.getLsbD_and, BitVec.getLsbD_not, hi, decide_true, Bool.true_and]
    cases (1#16).getLsbD i <;> simp
  have hmask (a : Word16) : portKey a = (a ||| 1#16) &&& 0xFFFE#16 := by
    rw [portKey, BitVec.and_or_distrib_right]
    exact (BitVec.or_zero (x := a &&& 0xFFFE#16)).symm
  exact ⟨fun h => by rw [hset a, h, ← hset b], fun h => by rw [hmask a, h, ← hmask b]⟩

section
variable {m : PortMap} {a : Word16}

/-- Reads of ports that can be told apart, by the key of the address. -/
theorem decodeRead_iff (h : m.wf = true) :
    (decodeRead m a = .ok .rsta ↔ portKey a = portKey m.statusR) ∧
    (decodeRead m a = .ok .rtrk ↔ portKey a = portKey m.trackR) ∧
    (decodeRead m a = .ok .rsec ↔ portKey a = portKey m.sectorR) ∧
    (decodeRead m a = .ok .rdat ↔ portKey a = portKey m.dataR) := by
  obtain ⟨hr, -, -⟩ := PortMap.wf_iff.1 h
  simp only [List.nodup_cons, List.mem_cons, List.not_mem_nil, not_or, or_false] at hr
  refine ⟨?_, ?_, ?_, ?_⟩ <;> grind [decodeRead, portHit_iff]

/-- Writes of ports that can be told apart, by the key of the address. -/
theorem decodeWrite_iff (h : m.wf = true) (bus : Byte) :
    (decodeWrite m a bus = .ok (.wcmd bus) ↔ portKey a = portKey m.commandW) ∧
    (decodeWrite m a bus = .ok (.wtrk bus) ↔ portKey a = portKey m.trackW) ∧
    (decodeWrite m a bus = .ok (.wsec bus) ↔ portKey a = portKey m.sectorW) ∧
    (decodeWrite m a bus = .ok (.wdat bus) ↔ portKey a = portKey m.dataW) := by
  obtain ⟨-, hw, -⟩ := PortMap.wf_iff.1 h
  simp only [List.nodup_cons, List.mem_cons, List.not_mem_nil, not_or, or_false] at hw
  refine ⟨?_, ?_, ?_, ?_⟩ <;> grind [decodeWrite, portHit_iff]

end

/-- Settles O4: decoding goes by the key of the address, and equal keys are addresses equal but for bit 0. -/
theorem portSelection : Obligations.PortSelection := by
  unfold Obligations.PortSelection
  intro m a bus h
  obtain ⟨hrsta, hrtrk, hrsec, hrdat⟩ := decodeRead_iff (a := a) h
  obtain ⟨hwcmd, hwtrk, hwsec, hwdat⟩ := decodeWrite_iff (a := a) h bus
  exact ⟨hrsta.trans portKey_eq_iff, hrtrk.trans portKey_eq_iff, hrsec.trans portKey_eq_iff,
    hrdat.trans portKey_eq_iff, hwcmd.trans portKey_eq_iff, hwtrk.trans portKey_eq_iff,
    hwsec.trans portKey_eq_iff, hwdat.trans portKey_eq_iff⟩

end Sys2Proof
end

section
/-! SUPPORT and proofs of the steps that are not operations of the opcode table (47_controller_interface.md R220, R231,
R236; 70_reset_and_hazards.md R330 to R335): waiting, accesses that are none, the clock, insertion and removal, and
what holds after `Reset`. -/

namespace Sys2Proof.Machine

/-! ### What a step runs -/

theorem runAccess_of_decode {a : HostAccess} {s : State} {i : Instr} (h : decode s.cfg.ports a = .ok i) :
    runAccess a s = exec i s := by
  rw [runAccess, h]

/-- An access that is none to the block is passed over (R44, R236). -/
theorem runAccess_of_ignored {a : HostAccess} {s : State}
    (h : decode s.cfg.ports a = .error .notAPort ∨ decode s.cfg.ports a = .error .notACruBit) :
    runAccess a s = .next s := by
  rcases h with h | h
  · rw [runAccess, h]
  · rw [runAccess, h]

/-- Settles O5: the event on top of the list is run, and that of an access that decodes is `exec`. -/
theorem stepRunsDecoded : Obligations.StepRunsDecoded := by
  unfold Obligations.StepRunsDecoded
  refine ⟨fun s a rest i hp hd => ?access, fun s i rest hp => step_of_pending hp, fun s nbits w i hd => ?word⟩
  case access =>
    rw [step_of_pending hp]
    exact runAccess_of_decode (s := { s with pending := rest }) hd
  case word => exact runAccess_of_decode hd

/-- Settles O6, by what the list of coming operations begins with. -/
theorem stepWithoutOperation : Obligations.StepWithoutOperation := by
  unfold Obligations.StepWithoutOperation
  refine ⟨fun s hp => step_eq_next.2 (.inl ⟨hp, rfl⟩), fun s a rest hp hd => ?ignored,
    fun s a rest hp => ?cruRead, fun s t rest hp => ?clock⟩
  case ignored =>
    rw [step_of_pending hp]
    exact runAccess_of_ignored (s := { s with pending := rest }) hd
  case cruRead => exact step_of_pending hp
  case clock => exact step_of_pending hp

/-! ### Insertion and removal -/

/-- What both operations ask of a drive before they do anything (R334). -/
def onFreeDrive (k : Nat) (s : State) (body : Out) : Out :=
  if !driveOk k then .refused .noSuchDrive
  else if driveInUse k s then .refused .driveInUse
  else body

theorem insertImage_eq (k : Nat) (img : ImageOperand) (s : State) :
    insertImage k img s = onFreeDrive k s (bringImage img s fun h images =>
      .next (reply .nothing { s with drives := s.drives.set k (some h), images := images })) := rfl

theorem ejectImage_eq (k : Nat) (s : State) :
    ejectImage k s = onFreeDrive k s (.next (reply .nothing { s with drives := s.drives.set k none })) := rfl

/-- The two refusals and what is done without them; only there the drive is one of the three. -/
theorem onFreeDrive_eq {k : Nat} {s : State} {busy : Bool} {body body' : Out} (hbusy : driveInUse k s = busy)
    (hbody : 1 ≤ k → k ≤ 3 → body = body') :
    onFreeDrive k s body =
      if ¬(1 ≤ k ∧ k ≤ 3) then .refused .noSuchDrive else if busy then .refused .driveInUse else body' := by
  by_cases hk : 1 ≤ k ∧ k ≤ 3
  · rw [onFreeDrive, driveOk_iff.2 hk, hbusy, hbody hk.1 hk.2, if_neg (not_not_intro hk)]
    rfl
  · have hno : driveOk k = false := Bool.eq_false_iff.2 fun h => hk (driveOk_iff.1 h)
    rw [onFreeDrive, hno, if_pos hk]
    rfl

/-- The target of a write transfer lies in the image of a drive that holds one (R334). -/
theorem targetInDrive_eq (k : Nat) (s : State) :
    targetInDrive k s =
      ((s.drives.get k).isSome && (s.xferTarget.map fun x => s.drives.get x.track.drive) == some (s.drives.get k)) := by
  unfold targetInDrive
  cases s.drives.get k with
  | none => rfl
  | some h =>
    cases s.xferTarget with
    | none => rfl
    | some x => rfl

/-- A drive is in use by the target of a write transfer, or as the drive of a read transfer (R334). -/
theorem driveInUse_eq (k : Nat) (s : State) :
    driveInUse k s =
      match s.cmdInProgress with
      | .none => false
      | .writeSector | .writeTrack =>
        (s.drives.get k).isSome && (s.xferTarget.map fun x => s.drives.get x.track.drive) == some (s.drives.get k)
      | .readSector | .readAddress | .readTrack => s.xferDrive == k := by
  unfold driveInUse
  cases s.cmdInProgress with
  | writeSector => exact targetInDrive_eq k s
  | writeTrack => exact targetInDrive_eq k s
  | none => rfl
  | readSector => rfl
  | readAddress => rfl
  | readTrack => rfl

theorem Drives.set_eq (d : Drives) {k : Nat} (x : Option Nat) (hlo : 1 ≤ k) (hhi : k ≤ 3) :
    d.set k x =
      if k = 1 then { d with drive1 := x } else if k = 2 then { d with drive2 := x } else { d with drive3 := x } := by
  interval_cases k <;> rfl

section
variable {s : State} {f : Nat → List DiskImage → Out}

/-- A new image must be sound (R335). -/
theorem bringImage_new (img : DiskImage) :
    bringImage (.new img) s f =
      if imageOk s.cfg img = false then .refused .badImage else f s.images.length (s.images ++ [img]) := by
  rw [bringImage]
  cases imageOk s.cfg img with
  | false => rfl
  | true => rfl

/-- A known image must be one there is (10_state.md R20). -/
theorem bringImage_known (h : Nat) :
    bringImage (.known h) s f = if s.images.length ≤ h then .refused .noSuchImage else f h s.images := by
  by_cases hh : h < s.images.length
  · rw [bringImage, if_pos hh, if_neg (Nat.not_le.2 hh)]
  · rw [bringImage, if_neg hh, if_pos (Nat.not_lt.1 hh)]

end

/-- Settles O7: the two refusals of both operations, then what each puts into the drive. -/
theorem insertAndEject : Obligations.InsertAndEject := by
  unfold Obligations.InsertAndEject
  refine fun s k rest => ⟨fun img hp => ?new, fun h hp => ?known, fun hp => ?eject⟩
  case new =>
    refine (step_of_pending hp).trans (onFreeDrive_eq (driveInUse_eq k s) fun hlo hhi => ?_)
    rw [bringImage_new, Drives.set_eq _ _ hlo hhi]
    rfl
  case known =>
    refine (step_of_pending hp).trans (onFreeDrive_eq (driveInUse_eq k s) fun hlo hhi => ?_)
    rw [bringImage_known, Drives.set_eq _ _ hlo hhi]
    rfl
  case eject =>
    refine (step_of_pending hp).trans (onFreeDrive_eq (driveInUse_eq k s) fun hlo hhi => ?_)
    rw [Drives.set_eq _ _ hlo hhi]
    rfl

/-! ### Reset -/

/-- Settles O53: the operation is one update, which the statement writes out. -/
theorem resetOperation : Obligations.ResetOperation := by
  unfold Obligations.ResetOperation
  exact fun s => ⟨_, rfl, rfl⟩

/-- The reset state meets the invariant for all parameters in their bounds: nothing is inserted, created or in
progress, and no status bit is set. -/
theorem inv_resetWith {p : Params} (h : p.wf = true) : Inv (State.resetWith p) :=
  have hstatus : (State.resetWith p).statusOk := StatusOk.zero p true
  { params := h
    memory := rfl
    references := rfl
    drive := (by decide : 0 = driveOf 0x00#8)
    head := (by decide : 0#1 = headOf 0x00#8)
    cylinder := Nat.zero_le _
    busy := hstatus.busy_iff
    request := hstatus.request_iff
    ready := hstatus.ready
    lost := hstatus.lost
    typeOne := fun _ => rfl
    transfer := rfl
    target := rfl
    clock := Nat.le_refl _
    readers := rfl
    walk := fun h => nomatch h }

/-- The parameters after reset are in their bounds, whatever values the spec leaves open (00_scope.md R5). -/
theorem resetParams_wf : Config.resetParams.wf = true := by
  have hpulse : Config.resetIndexPulseSeed % (Config.resetClocksPerRevPred + 1) + 1 ≤ Config.resetClocksPerRevPred + 1 :=
    Nat.mod_lt _ (Nat.succ_pos _)
  simp only [Params.wf, Config.resetParams, Bool.and_eq_true, and_assoc]
  exact ⟨decide_eq_true (Nat.succ_pos _), decide_eq_true (Nat.succ_pos _), decide_eq_true hpulse, by decide, by decide,
    by decide, by decide⟩

/-- Settles O55: the reset parameters are in their bounds. -/
theorem resetMeetsInvariant : Obligations.ResetMeetsInvariant := inv_resetWith resetParams_wf

end Sys2Proof.Machine
end

section
/-! SUPPORT. The controller in the terms of the statements (47_controller_interface.md, 48_controller_type1_type4.md,
49_controller_type2_type3.md): what a command write, the end of a transfer, a staged transfer, a failed command and the
lookup of a sector are there, each said once. -/

namespace Sys2Proof.Machine

/-! ### The status register -/

theorem drqSet_eq (s : State) : s.drqSet = statusHas s .drq := anySet_mask s.cfg .drq s.statusRegister

theorem endedStatus_eq (p : Params) (w : Byte) : endedStatus p w = w &&& ~~~(p.mask .busy ||| p.mask .drq) := by
  rw [endedStatus, clearBits, clearBits, BitVec.not_or, BitVec.and_assoc]

theorem stagedStatus_eq (p : Params) (w : Byte) : stagedStatus p w = p.mask .busy ||| p.mask .drq ||| w := by
  rw [stagedStatus, BitVec.or_assoc, BitVec.or_comm]

/-- A condition raised in a cleared status register stands there alone (60_exceptions.md R306). -/
theorem raiseCondition_of_clear {s : State} (h : s.statusRegister = 0x00#8) (m : Byte) :
    raiseCondition m s = { s with statusRegister := m } := by
  rw [raiseCondition, h, BitVec.zero_or]

/-- What a Read Sector reports of the data mark in a cleared register (30_encoding.md R71, R72). -/
theorem reportMark_clear (p : Params) (mark : Byte) :
    reportMark p mark 0x00#8 =
      if p.isFD1771 then
        (if mark.getLsbD 1 then 0x00#8 else p.mask .recordHigh) |||
          (if mark.getLsbD 0 then 0x00#8 else p.mask .recordLow)
      else if mark = 0xF8#8 then p.mask .recordType else 0x00#8 := by
  have hnone (b : Bool) (m : Byte) : maskIf (!b) m = if b then 0x00#8 else m := by
    cases b with
    | false => rfl
    | true => rfl
  rw [reportMark, recordBits1771, hnone, hnone, clearBits, BitVec.zero_and, BitVec.zero_or, BitVec.zero_or, maskIf]
  simp only [beq_iff_eq]

/-- A failed check raises `CRC_ERROR`, one that did not fail nothing (49_controller_type2_type3.md R274). -/
theorem reportCheck_eq_or (ok : Bool) (s : State) :
    reportCheck ok s =
      { s with statusRegister := s.statusRegister ||| if ok then 0x00#8 else s.cfg.mask .crcError } := by
  cases ok with
  | true =>
    rw [if_pos rfl, BitVec.or_zero]
    rfl
  | false => rfl

/-! ### The terms of the statements -/

theorem commandWrite_eq_accepted (typeI : Bool) (s : State) : commandWrite typeI s = accepted typeI s := by
  rw [commandWrite_eq, drqSet_eq]
  rfl

theorem complete_eq_transferEnded (s : State) : complete s = transferEnded s := by
  rw [complete_eq, endedStatus_eq]
  rfl

theorem writeProtected_eq (s : State) : s.writeProtected = protectedNow s := rfl

@[simp] theorem accepted_cfg (typeI : Bool) (s : State) : (accepted typeI s).cfg = s.cfg := rfl

@[simp] theorem accepted_statusRegister (typeI : Bool) (s : State) : (accepted typeI s).statusRegister = 0x00#8 := rfl

@[simp] theorem accepted_curTrack (typeI : Bool) (s : State) : (accepted typeI s).curTrack = s.curTrack := rfl

@[simp] theorem accepted_protectedNow (typeI : Bool) (s : State) : protectedNow (accepted typeI s) = protectedNow s := rfl

@[simp] theorem accepted_lookup (typeI : Bool) (s : State) : lookup (accepted typeI s) = lookup s := rfl

/-- A command that ends with a condition, in the statements' terms (60_exceptions.md R306). -/
theorem failWith_accepted (b : StatusBit) (s : State) :
    failWith b (accepted false s) = .next { accepted false s with statusRegister := s.cfg.mask b } :=
  congrArg Host.Outcome.next (raiseCondition_of_clear (s := accepted false s) rfl _)

/-- A read transfer that is staged with some status bits, a data mark and a CRC in the register (R274, R278, R280). -/
theorem stageRead_accepted (kind : Transfer) (buf : List Byte) (w mark : Byte) (c : Word16) (ready : Bool) (s : State) :
    stageRead kind buf
        { accepted false s with statusRegister := w, dataMark := mark, crc := c, crcReady := ready } =
      { transferStaged kind buf w s with dataMark := mark, readDataPtr := 0, crc := c, crcReady := ready } := by
  rw [stageRead, stage_eq, stagedStatus_eq]
  rfl

/-- A write transfer that is staged with its target and a data mark (R276, R277, R281). -/
theorem stageWrite_accepted (kind : Transfer) (target : XferTarget) (buf : List Byte) (mark : Byte) (s : State) :
    stageWrite kind target buf { accepted false s with dataMark := mark } =
      { transferStaged kind buf 0x00#8 s with xferTarget := some target, dataMark := mark } := by
  rw [stageWrite, stage_eq, stagedStatus_eq]
  rfl

/-! ### The lookup of a sector -/

/-- A field is matched by the number of a byte exactly where it holds that byte (45_sector_framer.md R178). -/
theorem fieldMatches_toNat (b : Byte) (field : Option Byte) : fieldMatches (b.toNat : Int) field = (field == some b) := by
  have hwild : ((b.toNat : Int) == -1) = false := beq_eq_false_iff_ne.2 (by omega)
  unfold fieldMatches
  rw [hwild, Bool.false_or]
  cases field with
  | none => rfl
  | some x =>
    rw [Bool.eq_iff_iff, beq_iff_eq, beq_iff_eq, Option.some_inj, Int.ofNat_inj, BitVec.toNat_inj]
    exact eq_comm

/-- The lookup of the controller compares cylinder and sector number, not the head (49_controller_type2_type3.md
R271). -/
theorem lookupSector_eq (t : Track) (s : State) :
    lookupSector t s = sectorNamed t s.trackRegister s.sectorRegister := by
  refine congrArg (fun p => t.sector.find? p) (funext fun v => ?_)
  have hhead : fieldMatches (-1) (head? t.data v) = true := rfl
  rw [sectorMatches, hhead, Bool.and_true, fieldMatches_toNat, fieldMatches_toNat]
  rfl

theorem lookup_of_named {s : State} {t : Track} {v : View} (ht : s.curTrack = some t)
    (hv : sectorNamed t s.trackRegister s.sectorRegister = some v) : lookup s = some (t, v) := by
  simp only [lookup, ht, lookupSector_eq, hv]

theorem lookup_eq_none {s : State}
    (h : ∀ t, s.curTrack = some t → sectorNamed t s.trackRegister s.sectorRegister = none) : lookup s = none := by
  rw [lookup]
  cases ht : s.curTrack with
  | none => rfl
  | some t => simp only [lookupSector_eq, h t ht]

/-! ### Commands that are accepted -/

section
variable {s : State} (h : s.timedOut = false)
include h

theorem exec_rdsec_of_not_timedOut (m sb e ca1 a0 : Bool) : exec (.rdsec m sb e ca1 a0) s = cmdReadSector s :=
  access_of_not_timedOut h _

theorem exec_wrsec_of_not_timedOut (m sb e ca1 a0 : Bool) : exec (.wrsec m sb e ca1 a0) s = cmdWriteSector ca1 a0 s :=
  access_of_not_timedOut h _

theorem exec_rdaddr_of_not_timedOut (x : BitVec 4) : exec (.rdaddr x) s = cmdReadAddress s := access_of_not_timedOut h _

theorem exec_rdtrk_of_not_timedOut (x : BitVec 4) : exec (.rdtrk x) s = cmdReadTrack s := access_of_not_timedOut h _

theorem exec_wrtrk_of_not_timedOut (x : BitVec 4) : exec (.wrtrk x) s = cmdWriteTrack s := access_of_not_timedOut h _

theorem exec_forceint_of_not_timedOut (x : BitVec 4) : exec (.forceint x) s = .next (forceInterrupt s) :=
  access_of_not_timedOut h _

theorem exec_rdat_of_not_timedOut : exec .rdat s = readData s := access_of_not_timedOut h _

end

end Sys2Proof.Machine
end

section
/-! SUPPORT and proofs of the commands of Type II, III and IV (48_controller_type1_type4.md R262;
49_controller_type2_type3.md R271 to R281): each by the branch of its rule that the hypotheses select. -/

namespace Sys2Proof.Machine

/-! ### Force Interrupt -/

/-- Settles O44: the two status updates of the rule are the end of a transfer. -/
theorem forceInterruptCommand : Obligations.ForceInterruptCommand := by
  unfold Obligations.ForceInterruptCommand
  intro s x h
  have hstatus : clearBits (if s.drqSet then clearBits s.statusRegister (s.cfg.mask .drq) else s.statusRegister)
      (s.cfg.mask .busy) = s.statusRegister &&& ~~~(s.cfg.mask .busy ||| s.cfg.mask .drq) :=
    (clearBits_drq_busy s.cfg s.statusRegister).trans (endedStatus_eq _ _)
  rw [exec_forceint_of_not_timedOut h, forceInterrupt_eq, hstatus, drqSet_eq]

/-! ### No sector, no track, a protected medium -/

section
variable {s : State}

theorem cmdReadSector_of_not_found (h : lookup s = none) :
    cmdReadSector s = .next { accepted false s with statusRegister := s.cfg.mask .notFound } := by
  simp only [cmdReadSector, commandWrite_eq_accepted, accepted_lookup, h, failWith_accepted]

theorem cmdWriteSector_of_protected (h : protectedNow s = true) (a1 a0 : Bool) :
    cmdWriteSector a1 a0 s = .next { accepted false s with statusRegister := s.cfg.mask .writeProtected } := by
  simp only [cmdWriteSector, commandWrite_eq_accepted, writeProtected_eq, accepted_protectedNow, h, if_true,
    failWith_accepted]

theorem cmdWriteSector_of_not_found (hp : protectedNow s = false) (h : lookup s = none) (a1 a0 : Bool) :
    cmdWriteSector a1 a0 s = .next { accepted false s with statusRegister := s.cfg.mask .notFound } := by
  simp only [cmdWriteSector, commandWrite_eq_accepted, writeProtected_eq, accepted_protectedNow, hp,
    Bool.false_eq_true, if_false, accepted_lookup, h, failWith_accepted]

theorem cmdWriteTrack_of_protected (h : protectedNow s = true) :
    cmdWriteTrack s = .next { accepted false s with statusRegister := s.cfg.mask .writeProtected } := by
  simp only [cmdWriteTrack, commandWrite_eq_accepted, writeProtected_eq, accepted_protectedNow, h, if_true,
    failWith_accepted]

theorem cmdWriteTrack_of_no_track (hp : protectedNow s = false) (h : s.curTrack = none) :
    cmdWriteTrack s = .next { accepted false s with statusRegister := s.cfg.mask .notFound } := by
  simp only [cmdWriteTrack, commandWrite_eq_accepted, writeProtected_eq, accepted_protectedNow, hp,
    Bool.false_eq_true, if_false, accepted_curTrack, h, failWith_accepted]

theorem cmdReadAddress_of_no_sector (h : ∀ t, s.curTrack = some t → t.sector = []) :
    cmdReadAddress s = .next { accepted false s with statusRegister := s.cfg.mask .notFound } := by
  simp only [cmdReadAddress, commandWrite_eq_accepted, accepted_curTrack]
  cases ht : s.curTrack with
  | none => exact failWith_accepted _ _
  | some t =>
    simp only [h t ht]
    exact failWith_accepted _ _

theorem cmdReadTrack_of_no_data (h : ∀ t, s.curTrack = some t → t.format = .unknown ∨ t.data = []) :
    cmdReadTrack s = .next { accepted false s with statusRegister := s.cfg.mask .notFound } := by
  simp only [cmdReadTrack, commandWrite_eq_accepted, accepted_curTrack]
  cases ht : s.curTrack with
  | none => exact failWith_accepted _ _
  | some t =>
    have hempty : t.format = .unknown ∨ t.data.length = 0 := (h t ht).imp_right List.length_eq_zero_iff.2
    simp only [if_pos hempty]
    exact failWith_accepted _ _

end

/-- Settles O45: the lookup of the controller is the statement's. -/
theorem notFoundCommands : Obligations.NotFoundCommands := by
  unfold Obligations.NotFoundCommands
  refine fun s ht hnone => ⟨fun m sb e ca1 a0 => ?read, fun hp m sb e ca1 a0 => ?write⟩
  case read => rw [exec_rdsec_of_not_timedOut ht, cmdReadSector_of_not_found (lookup_eq_none hnone)]
  case write => rw [exec_wrsec_of_not_timedOut ht, cmdWriteSector_of_not_found hp (lookup_eq_none hnone)]

/-- Settles O46: write protection is tested first. -/
theorem writeProtectedCommands : Obligations.WriteProtectedCommands := by
  unfold Obligations.WriteProtectedCommands
  refine fun s ht hp => ⟨fun m sb e ca1 a0 => ?sector, fun x => ?track⟩
  case sector => rw [exec_wrsec_of_not_timedOut ht, cmdWriteSector_of_protected hp]
  case track => rw [exec_wrtrk_of_not_timedOut ht, cmdWriteTrack_of_protected hp]

/-! ### Read Sector -/

/-- Read Sector with its sector found (R274). -/
theorem cmdReadSector_of_found {s : State} {t : Track} {v : View} {d : Density} {mark : Byte}
    (hl : lookup s = some (t, v)) (hd : t.format.density? = some d) (hb : InBounds t.data v)
    (hm : t.data[v.dataOff]? = some mark) :
    cmdReadSector s = .next
      { transferStaged .readSector (slice t.data (v.dataOff + 1) (sizeAt t.data v))
          (reportMark s.cfg mark 0x00#8 ||| if dataGood s.cfg d t.data v then 0x00#8 else s.cfg.mask .crcError) s with
        dataMark := mark, readDataPtr := 0, crc := dataCrc s.cfg d t.data v, crcReady := true } := by
  have hmark : dataMark? t.data v = some mark := hm
  simp only [cmdReadSector, commandWrite_eq_accepted, accepted_lookup, hl, withDensity, hd, hmark, hb.sectorRead_eq,
    hb.verifyData_eq, orRefuse_some, reportCheck_eq_or, leaveCrc_cfg, leaveCrc_statusRegister, accepted_cfg,
    accepted_statusRegister]
  exact congrArg Host.Outcome.next (stageRead_accepted .readSector (slice t.data (v.dataOff + 1) (sizeAt t.data v))
    (reportMark s.cfg mark 0x00#8 ||| if dataGood s.cfg d t.data v then 0x00#8 else s.cfg.mask .crcError) mark
    (dataCrc s.cfg d t.data v) true s)

/-- Settles O47, by whether the lookup finds a sector. -/
theorem readSectorCommand : Obligations.ReadSectorCommand := by
  unfold Obligations.ReadSectorCommand
  intro s m sb e ca1 a0 ht
  rw [exec_rdsec_of_not_timedOut ht]
  refine ⟨fun hnone => cmdReadSector_of_not_found (lookup_eq_none hnone), fun t v d mark htrack hv hd hin hm => ?found⟩
  case found =>
    rw [← reportMark_clear]
    exact ⟨_, _, cmdReadSector_of_found (lookup_of_named htrack hv) hd (viewInBounds_iff.1 hin) hm⟩

/-! ### Write Sector and Write Track -/

/-- The data mark by variant and low command bits (R276). -/
theorem writeMark_eq (p : Params) (a1 a0 : Bool) :
    writeMark p a1 a0 =
      match p.isFD1771, a1, a0 with
      | true, false, false => 0xFB#8
      | true, false, true => 0xFA#8
      | true, true, false => 0xF9#8
      | true, true, true => 0xF8#8
      | false, _, false => 0xFB#8
      | false, _, true => 0xF8#8 := by
  unfold writeMark
  cases p.isFD1771 with
  | false => cases a0 <;> rfl
  | true => cases a1 <;> cases a0 <;> rfl

theorem cmdWriteSector_of_found {s : State} {t : Track} {v : View} (hp : protectedNow s = false)
    (hl : lookup s = some (t, v)) (hb : InBounds t.data v) (a1 a0 : Bool) :
    cmdWriteSector a1 a0 s = .next
      { transferStaged .writeSector (List.replicate (sizeAt t.data v) 0x00#8) 0x00#8 s with
        xferTarget := some { track := s.curRef, sector := some v }, dataMark := writeMark s.cfg a1 a0 } := by
  simp only [cmdWriteSector, commandWrite_eq_accepted, writeProtected_eq, accepted_protectedNow, hp,
    Bool.false_eq_true, if_false, accepted_lookup, hl, hb.size?_eq, orRefuse_some]
  exact congrArg Host.Outcome.next (stageWrite_accepted ..)

theorem cmdWriteTrack_of_track {s : State} {t : Track} (hp : protectedNow s = false) (ht : s.curTrack = some t) :
    cmdWriteTrack s = .next
      { transferStaged .writeTrack (List.replicate s.cfg.trackBytesFm 0x00#8) 0x00#8 s with
        xferTarget := some { track := s.curRef, sector := none } } := by
  simp only [cmdWriteTrack, commandWrite_eq_accepted, writeProtected_eq, accepted_protectedNow, hp,
    Bool.false_eq_true, if_false, accepted_curTrack, ht]
  exact congrArg Host.Outcome.next (stageWrite_accepted (mark := s.dataMark) ..)

/-- Settles O48, by whether the lookup finds a sector. -/
theorem writeCommandsStage : Obligations.WriteCommandsStage := by
  unfold Obligations.WriteCommandsStage
  refine fun s t ht htrack hp => ⟨fun m sb e ca1 a0 hnone => ?notFound, fun m sb e ca1 a0 v hv hin => ?found,
    fun x => (exec_wrtrk_of_not_timedOut ht x).trans (cmdWriteTrack_of_track hp htrack)⟩
  case notFound =>
    have hlookup : lookup s = none := lookup_eq_none fun t' ht' => by
      obtain rfl : t = t' := Option.some.inj (htrack.symm.trans ht')
      exact hnone
    rw [exec_wrsec_of_not_timedOut ht, cmdWriteSector_of_not_found hp hlookup]
  case found =>
    rw [exec_wrsec_of_not_timedOut ht,
      cmdWriteSector_of_found hp (lookup_of_named htrack hv) (viewInBounds_iff.1 hin), writeMark_eq]
    rfl

/-! ### Read Address and Read Track -/

/-- An ID field inside the buffer can be verified, whatever the data field (40_crc16.md R102). -/
theorem verifyId_of_le {data : List Byte} {v : View} (h : v.idOff + 7 ≤ data.length) (p : Params) (d : Density) :
    verifyId p d data v = some (idGood p d data v, idCrc p d data v) := by
  have hfield : fieldCrcId p d data v = some (idCrc p d data v) := by
    rw [fieldCrcId, memRead_of_le (by omega), Option.map_some, idCrc]
  have hstored : v.idOff + 5 + 2 ≤ data.length := h
  have hgood : idGood p d data v = decide (slice data (v.idOff + 5) 2 = crcBytes (idCrc p d data v)) :=
    storedCrc_eq_decide hstored _
  simp only [verifyId, hfield, memRead_of_le hstored, hgood]

theorem cmdReadAddress_of_sector {s : State} {t : Track} {v : View} {d : Density} (ht : s.curTrack = some t)
    (hv : t.sector.head? = some v) (hd : t.format.density? = some d) (hin : v.idOff + 7 ≤ t.data.length) :
    cmdReadAddress s = .next
      { transferStaged .readAddress (slice t.data (v.idOff + 1) 6)
          (if idGood s.cfg d t.data v then 0x00#8 else s.cfg.mask .crcError) s with
        readDataPtr := 0, crc := idCrc s.cfg d t.data v, crcReady := true } := by
  obtain ⟨rest, hlist⟩ := List.head?_eq_some_iff.1 hv
  have hread : memRead t.data (v.idOff + 1) 6 = some (slice t.data (v.idOff + 1) 6) := memRead_of_le (by omega)
  simp only [cmdReadAddress, commandWrite_eq_accepted, accepted_curTrack, ht, hlist, withDensity, hd, hread,
    verifyId_of_le hin, orRefuse_some, reportCheck_eq_or, leaveCrc_cfg, leaveCrc_statusRegister, accepted_cfg,
    accepted_statusRegister, BitVec.zero_or]
  exact congrArg Host.Outcome.next (stageRead_accepted .readAddress (slice t.data (v.idOff + 1) 6)
    (if idGood s.cfg d t.data v then 0x00#8 else s.cfg.mask .crcError) s.dataMark (idCrc s.cfg d t.data v) true s)

theorem cmdReadTrack_of_data {s : State} {t : Track} (ht : s.curTrack = some t) (hfmt : t.format ≠ .unknown)
    (hdata : t.data ≠ []) :
    cmdReadTrack s = .next { transferStaged .readTrack t.data 0x00#8 s with readDataPtr := 0 } := by
  have hthere : ¬(t.format = .unknown ∨ t.data.length = 0) :=
    not_or.2 ⟨hfmt, fun h => hdata (List.length_eq_zero_iff.1 h)⟩
  simp only [cmdReadTrack, commandWrite_eq_accepted, accepted_curTrack, ht, if_neg hthere]
  exact congrArg Host.Outcome.next
    (stageRead_accepted (w := 0x00#8) (mark := s.dataMark) (c := s.crc) (ready := s.crcReady) ..)

/-- Settles O49, by what the current track holds. -/
theorem readAddressAndTrack : Obligations.ReadAddressAndTrack := by
  unfold Obligations.ReadAddressAndTrack
  refine fun s x ht => ⟨fun hnone => ?noSector, fun hnone => ?noData, fun hnone hp => ?noTrack,
    fun t htrack => ⟨fun v d hv hd hin => ?address, fun hfmt hdata => ?track⟩⟩
  case noSector => exact (exec_rdaddr_of_not_timedOut ht x).trans (cmdReadAddress_of_no_sector hnone)
  case noData => exact (exec_rdtrk_of_not_timedOut ht x).trans (cmdReadTrack_of_no_data hnone)
  case noTrack => exact (exec_wrtrk_of_not_timedOut ht x).trans (cmdWriteTrack_of_no_track hp hnone)
  case address => exact ⟨_, _, (exec_rdaddr_of_not_timedOut ht x).trans (cmdReadAddress_of_sector htrack hv hd hin)⟩
  case track => exact (exec_rdtrk_of_not_timedOut ht x).trans (cmdReadTrack_of_data htrack hfmt hdata)

end Sys2Proof.Machine
end

section
/-! SUPPORT and proofs of the ports (47_controller_interface.md R222 to R225), of the byte transfer
(49_controller_type2_type3.md R282 to R286) and of the revolution time-out (60_exceptions.md R313). -/

namespace Sys2Proof.Machine

/-! ### Reads of the ports -/

/-- The index pulse as the statement has it (R222; 60_exceptions.md R314). -/
theorem statusLogical_eq (s : State) :
    s.statusLogical =
      if s.statusTypeI = true ∧ (s.drives.get s.driveSelect).isSome = true ∧
        (s.now - s.startClock) % s.cfg.clocksPerRev < s.cfg.indexPulseClocks
      then s.statusRegister ||| s.cfg.mask .index else s.statusRegister := by
  have hpulse : s.indexPulse = true ↔ s.statusTypeI = true ∧ (s.drives.get s.driveSelect).isSome = true ∧
      (s.now - s.startClock) % s.cfg.clocksPerRev < s.cfg.indexPulseClocks := by
    simp only [State.indexPulse, State.imagePresent, Bool.and_eq_true, decide_eq_true_eq, and_assoc]
  simp only [State.statusLogical, maskIf, ← hpulse]
  cases s.indexPulse with
  | true => rfl
  | false => exact BitVec.or_zero

/-- The transfers a Data-port read takes part in are the three read transfers. -/
theorem Transfer.isRead_iff {k : Transfer} : k.isRead = true ↔ k ∈ [Transfer.readSector, .readAddress, .readTrack] := by
  cases k <;> simp [Transfer.isRead]

theorem Transfer.isWrite_iff {k : Transfer} : k.isWrite = true ↔ k ∈ [Transfer.writeSector, .writeTrack] := by
  cases k <;> simp [Transfer.isWrite]

/-- Outside a read transfer the Data port is a register (R225). -/
theorem readData_of_not_isRead {s : State} (h : s.cmdInProgress.isRead = false) :
    readData s = .next (replyBus s.dataRegister s) := by
  rw [readData, h, if_neg Bool.false_ne_true]

theorem readData_of_isRead {s : State} (h : s.cmdInProgress.isRead = true) : readData s = transferRead s := by
  rw [readData, h, if_pos rfl]

/-- Settles O38: with no time-out pending each port's own rule runs. -/
theorem portReads : Obligations.PortReads := by
  unfold Obligations.PortReads
  refine fun s ht => ⟨?status, access_of_not_timedOut ht _, access_of_not_timedOut ht _, fun hc => ?data⟩
  case status =>
    rw [← statusLogical_eq]
    exact access_of_not_timedOut ht _
  case data =>
    have hread : s.cmdInProgress.isRead = false := Bool.eq_false_iff.2 fun h => hc (Transfer.isRead_iff.1 h)
    exact (exec_rdat_of_not_timedOut ht).trans (readData_of_not_isRead hread)

/-! ### The byte transfer -/

/-- During a write transfer the Data port stores a byte (R229, R284). -/
theorem exec_wdat_of_isWrite {s : State} (ht : s.timedOut = false) (hc : s.cmdInProgress.isWrite = true) (bus : Byte) :
    exec (.wdat bus) s = transferWrite (~~~bus) (reply .nothing { s with dataRegister := ~~~bus }) := by
  rw [exec_wdat_of_not_timedOut ht, invert_eq_not]
  exact if_pos hc

end Sys2Proof.Machine

/-! The two statements have the names of the model's own rules, so their proofs stand outside the model's namespace. -/

namespace Sys2Proof

open Machine

/-- Settles O50: the byte is delivered, and with the last one the transfer ends. -/
theorem transferRead : Obligations.TransferRead := by
  unfold Obligations.TransferRead
  intro s l ht hc hl
  rw [exec_rdat_of_not_timedOut ht, readData_of_isRead (Transfer.isRead_iff.2 hc)]
  refine transferRead_eq_next.2 ⟨l, hl, ?_⟩
  by_cases hlast : s.bytesLeft ≤ 1
  · rw [if_pos hlast, if_pos (Nat.sub_eq_zero_of_le hlast), complete_eq_transferEnded]
    rfl
  · rw [if_neg hlast, if_neg (Nat.sub_ne_zero_of_lt (Nat.not_le.1 hlast))]
    rfl

/-- Settles O51: the byte is stored, and with the last one the buffer is committed to the captured target. -/
theorem transferWrite : Obligations.TransferWrite := by
  unfold Obligations.TransferWrite
  intro s bus ht hc hin
  rw [exec_wdat_of_isWrite ht (Transfer.isWrite_iff.2 hc)]
  refine ⟨fun hmore => ?earlier, fun hlast r v s' hsector htarget hexec => ?lastOfSector,
    fun hlast r s' htrack htarget hexec => ?lastOfTrack⟩
  case earlier =>
    have hmore' : s.bytesLeft - 1 ≠ 0 := by omega
    exact transferWrite_eq_next.2 ⟨hin, .inl ⟨hmore', rfl⟩⟩
  case lastOfSector =>
    exact transferWrite_eq_next.2 ⟨hin, .inr ⟨Nat.sub_eq_zero_of_le hlast, s',
      commit_eq_next.2 (.inl ⟨r, v, hsector, htarget, hexec⟩), (complete_eq_transferEnded s').symm⟩⟩
  case lastOfTrack =>
    exact transferWrite_eq_next.2 ⟨hin, .inr ⟨Nat.sub_eq_zero_of_le hlast, s',
      commit_eq_next.2 (.inr ⟨r, htrack, htarget, hexec⟩), (complete_eq_transferEnded s').symm⟩⟩

end Sys2Proof

namespace Sys2Proof.Machine

/-! ### The revolution time-out -/

/-- A command or a port access is a rule of its own behind the common prelude (47_controller_interface.md R221). -/
theorem exists_access {i : Instr} (h : i.format = .cmd8 ∨ i.format = .port) :
    ∃ body : State → Out, ∀ s, exec i s = access body s := by
  cases i with
  | restore _ v _ => exact ⟨cmdRestore v, fun _ => rfl⟩
  | seek _ v _ => exact ⟨cmdSeek v, fun _ => rfl⟩
  | step u _ v _ => exact ⟨cmdStep u v, fun _ => rfl⟩
  | stepin u _ v _ => exact ⟨cmdStepIn u v, fun _ => rfl⟩
  | stepout u _ v _ => exact ⟨cmdStepOut u v, fun _ => rfl⟩
  | rdsec _ _ _ _ _ => exact ⟨cmdReadSector, fun _ => rfl⟩
  | wrsec _ _ _ ca1 a0 => exact ⟨cmdWriteSector ca1 a0, fun _ => rfl⟩
  | rdaddr _ => exact ⟨cmdReadAddress, fun _ => rfl⟩
  | forceint _ => exact ⟨cmdForceInterrupt, fun _ => rfl⟩
  | rdtrk _ => exact ⟨cmdReadTrack, fun _ => rfl⟩
  | wrtrk _ => exact ⟨cmdWriteTrack, fun _ => rfl⟩
  | rsta => exact ⟨_, fun _ => rfl⟩
  | rtrk => exact ⟨_, fun _ => rfl⟩
  | rsec => exact ⟨_, fun _ => rfl⟩
  | rdat => exact ⟨readData, fun _ => rfl⟩
  | wcmd bus => exact ⟨runCommand (invert bus), fun _ => rfl⟩
  | wtrk bus => exact ⟨_, fun _ => rfl⟩
  | wsec bus => exact ⟨_, fun _ => rfl⟩
  | wdat bus => exact ⟨writeData (invert bus), fun _ => rfl⟩
  | _ => rcases h with h | h <;> cases h

/-- The two transfers the revolution timer ends, once their revolution has elapsed (60_exceptions.md R313, R315). -/
theorem timedOut_of_elapsed {s : State} (hc : s.cmdInProgress.timed = true)
    (h : s.cfg.clocksPerRev ≤ s.now - s.startClock) : s.timedOut = true := by
  rw [State.timedOut, hc, decide_eq_true h]
  rfl

/-- An access whose prelude ends a transfer is the access after that end. -/
theorem access_of_ended {body : State → Out} {s s1 : State} (h : checkRevolution s = .next (transferEnded s1)) :
    access body s = access body (transferEnded s1) := by
  have hidle : (transferEnded s1).timedOut = false := rfl
  rw [access_of_not_timedOut hidle, access, h, andThen_next]

/-- Settles O52: the prelude ends the transfer, and then it has nothing left to do. -/
theorem revolutionTimeOut : Obligations.RevolutionTimeOut := by
  unfold Obligations.RevolutionTimeOut
  intro s i hi hlate
  obtain ⟨body, hbody⟩ := exists_access hi
  simp only [hbody]
  refine ⟨fun hc => access_of_ended ?readTrack, fun r hc htarget hthere => ?writeTrack⟩
  case readTrack =>
    have htimed : s.timedOut = true := timedOut_of_elapsed (by rw [hc]; rfl) hlate
    exact checkRevolution_eq_next.2 (.inr (.inl ⟨htimed, hc, (complete_eq_transferEnded s).symm⟩))
  case writeTrack =>
    have htimed : s.timedOut = true := timedOut_of_elapsed (by rw [hc]; rfl) hlate
    obtain ⟨t, ht⟩ := Option.isSome_iff_exists.1 hthere
    have hexec := exec_trackWrite (fmt := .fm) ht rfl (s.dataBuffer.take (s.bytesExpected - s.bytesLeft))
    refine ⟨_, hexec, access_of_ended (checkRevolution_eq_next.2 (.inr (.inr ⟨htimed, hc, _, ?_,
      (complete_eq_transferEnded _).symm⟩)))⟩
    refine commit_eq_next.2 (.inr ⟨r, hc, htarget, writeTrackAt_eq_next.2 ⟨⟨t, ht⟩, ?_⟩⟩)
    rw [putTrack_eq]
    rfl

end Sys2Proof.Machine
end

section
/-! SUPPORT and proofs of the Type I commands (48_controller_type1_type4.md R250 to R258) and of the Command port
(47_controller_interface.md R226). On a memory that is in its form the verification scan reads no byte outside a track,
so no Type I command is refused; what it finds is said in the statements' terms once, for all five. -/

namespace Sys2Proof.Machine

/-! ### The verification scan (R257) -/

/-- A view lies in its track, ID field first. -/
theorem idOff_of_viewPlaced {data : List Byte} {v : View} (h : viewPlaced data v = true) :
    v.idOff + 7 ≤ v.dataOff ∧ v.idOff + 7 ≤ data.length := by
  simp only [viewPlaced, Bool.and_eq_true, decide_eq_true_eq] at h
  obtain ⟨hid, hdata⟩ := h
  exact ⟨hid, by omega⟩

/-- Every view of a track of the memory lies in its track. -/
theorem viewPlaced_of_mem {s : State} {r : TrackRef} {t : Track} {v : View} (hm : Memory.wf s.images = true)
    (ht : s.track? r = some t) (hv : v ∈ t.sector) : viewPlaced t.data v = true := by
  have hwf := Memory.wf_track hm ht
  simp only [trackWf, Bool.and_eq_true] at hwf
  exact List.all_eq_true.1 hwf.2 v hv

/-- An ID of the list carries the cylinder. -/
def onCylinder (data : List Byte) (cylinder : Byte) (v : View) : Bool := data[v.idOff + 1]? == some cylinder

/-- The scan answers, and says whether some ID of the cylinder is right, and, where none is, whether some ID has the
cylinder at all. -/
theorem verifyScan_eq_some (p : Params) (d : Density) {data : List Byte} (cylinder : Byte) {l : List View}
    (hl : ∀ v ∈ l, v.idOff + 7 ≤ data.length) (acc : VerifyScan) :
    ∃ r, verifyScan p d data cylinder l acc = some r ∧
      r.found = (acc.found || l.any fun v => onCylinder data cylinder v && idGood p d data v) ∧
      (r.found = false → r.bad = (acc.bad || l.any (onCylinder data cylinder))) := by
  induction l generalizing acc with
  | nil => exact ⟨acc, rfl, by simp, fun _ => by simp⟩
  | cons v l ih =>
    have hin : v.idOff + 7 ≤ data.length := hl v List.mem_cons_self
    have hrest : ∀ u ∈ l, u.idOff + 7 ≤ data.length := fun u hu => hl u (List.mem_cons_of_mem v hu)
    have hread : cylinder? data v = some (data.getD (v.idOff + 1) 0#8) := getElem?_eq_getD (by omega)
    have hon : onCylinder data cylinder v = decide (data.getD (v.idOff + 1) 0#8 = cylinder) := by
      rw [onCylinder, getElem?_eq_getD (by omega), Bool.beq_eq_decide_eq]
      simp only [Option.some_inj]
    simp only [verifyScan, hread, verifyId_of_le hin, List.any_cons, hon]
    by_cases hc : data.getD (v.idOff + 1) 0#8 = cylinder
    · simp only [if_pos hc, decide_eq_true hc, Bool.true_and]
      cases idGood p d data v with
      | true => exact ⟨_, rfl, by simp, fun h => nomatch h⟩
      | false =>
        obtain ⟨r, hr, hfound, hbad⟩ := ih hrest { acc with bad := true, crc := some (idCrc p d data v) }
        exact ⟨r, hr, by simpa using hfound, fun h => by simpa using hbad h⟩
    · obtain ⟨r, hr, hfound, hbad⟩ := ih hrest acc
      simp only [if_neg hc, decide_eq_false hc, Bool.false_and, Bool.false_or]
      exact ⟨r, hr, hfound, hbad⟩

/-- The bits a scan raises (R257). -/
def scanBits (p : Params) (r : VerifyScan) : Byte :=
  if r.found then 0x00#8
  else if r.bad then p.mask .seekError ||| p.mask .crcError
  else p.mask .seekError

theorem raiseVerify_eq_scanBits (r : VerifyScan) (s : State) :
    raiseVerify r s = { s with statusRegister := s.statusRegister ||| scanBits s.cfg r } := by
  unfold raiseVerify scanBits
  cases r.found with
  | true =>
    rw [if_pos rfl, if_pos rfl, BitVec.or_zero]
  | false =>
    cases r.bad with
    | true => exact congrArg (fun w => { s with statusRegister := w }) (BitVec.or_assoc ..)
    | false => rfl

/-- The scan of the current track answers, with the bits of the statement. -/
theorem exists_verifyTrack {s : State} (hm : Memory.wf s.images = true) :
    ∃ r, verifyTrack s = some r ∧ scanBits s.cfg r = verifyBits s.cfg s.curTrack s.trackRegister := by
  unfold verifyTrack
  cases ht : s.curTrack with
  | none => exact ⟨_, rfl, rfl⟩
  | some t =>
    cases hd : t.format.density? with
    | none =>
      refine ⟨VerifyScan.start, by simp only [hd], ?_⟩
      simp only [verifyBits, hd]
      rfl
    | some d =>
      have hl : ∀ v ∈ t.sector, v.idOff + 7 ≤ t.data.length := fun v hv =>
        (idOff_of_viewPlaced (viewPlaced_of_mem hm ht hv)).2
      obtain ⟨r, hr, hfound, hbad⟩ := verifyScan_eq_some s.cfg d s.trackRegister hl VerifyScan.start
      have hsame : r.found = (t.sector.any fun v => onCylinder t.data s.trackRegister v && idGood s.cfg d t.data v) :=
        hfound.trans (Bool.false_or _)
      refine ⟨r, by simp only [hd, hr], ?_⟩
      simp only [verifyBits, hd, List.any_map, Function.comp_def]
      change _ = if (t.sector.any fun v => onCylinder t.data s.trackRegister v && idGood s.cfg d t.data v) = true then _
        else if t.sector.any (onCylinder t.data s.trackRegister) = true then _ else _
      rw [← hsame, scanBits]
      cases hf : r.found with
      | true => rfl
      | false => rw [hbad hf, VerifyScan.start, Bool.false_or]

/-! ### Status assembly and the whole command -/

theorem typeOneBits_eq (s : State) :
    typeOneBits s =
      (if s.trackSelect = 0 then s.cfg.mask .track0 else 0x00#8) |||
        (if protectedNow s then s.cfg.mask .writeProtected else 0x00#8) |||
        (if s.hardwareBits.getLsbD s.cfg.cruHeadLoad.val then s.cfg.mask .headLoaded else 0x00#8) := by
  have htrack0 (m : Byte) : maskIf (s.trackSelect == 0) m = if s.trackSelect = 0 then m else 0x00#8 := by
    cases s.trackSelect with
    | zero => rfl
    | succ n => rfl
  rw [typeOneBits, htrack0]
  rfl

/-- A head movement after the common part of the command write. -/
theorem HeadMove.accepted_eq {move : State → State} (h : HeadMove move) (s : State) :
    move (accepted true s) = { accepted true s with
      trackSelect := (move (accepted true s)).trackSelect
      trackRegister := (move (accepted true s)).trackRegister
      stepDir := (move (accepted true s)).stepDir } :=
  h.frame (accepted true s)

/-- Assembling the status of a command that moved to a cylinder, with what the verification raised (R258). -/
theorem assembleStatus_eq (v : Bool) (cylinder : Nat) (register : Byte) (dir : StepDir) (c : Word16) (ready : Bool)
    (s : State) :
    assembleStatus { accepted true s with
        trackSelect := cylinder, trackRegister := register, stepDir := dir, crc := c, crcReady := ready
        statusRegister := if v then
          verifyBits s.cfg (s.track? ⟨s.driveSelect, cylinder, s.headSelect.toNat⟩) register else 0x00#8 } =
      { typeOneEnds v cylinder register dir s with crc := c, crcReady := ready } := by
  rw [assembleStatus, raiseCondition, typeOneBits_eq, BitVec.or_comm]
  rfl

/-- Every Type I command answers, on a memory that is in its form; it runs over the CRC register only to verify. -/
theorem exists_typeOne {move : State → State} (h : HeadMove move) (v : Bool) {s : State}
    (hm : Memory.wf s.images = true) {cylinder : Nat} {register : Byte} {dir : StepDir}
    (hcylinder : (move (accepted true s)).trackSelect = cylinder)
    (hregister : (move (accepted true s)).trackRegister = register)
    (hdir : (move (accepted true s)).stepDir = dir) :
    ∃ c ready, typeOne v move s =
        .next { typeOneEnds v cylinder register dir s with crc := c, crcReady := ready } ∧
      (v = false → c = s.crc ∧ ready = s.crcReady) := by
  have hmoved := h.accepted_eq s
  rw [hcylinder, hregister, hdir] at hmoved
  cases v with
  | false =>
    refine ⟨s.crc, s.crcReady, typeOne_eq_next.2 (.inl ⟨rfl, ?_⟩), fun _ => ⟨rfl, rfl⟩⟩
    rw [commandWrite_eq_accepted, hmoved]
    exact (assembleStatus_eq false cylinder register dir s.crc s.crcReady s).symm
  | true =>
    obtain ⟨r, hr, hbits⟩ := exists_verifyTrack (s := move (accepted true s)) (by rw [hmoved]; exact hm)
    have hleft : leaveCrc? r.crc (move (accepted true s)) = { move (accepted true s) with
        crc := (leaveCrc? r.crc (move (accepted true s))).crc
        crcReady := (leaveCrc? r.crc (move (accepted true s))).crcReady } := by
      cases r.crc with
      | none => rfl
      | some w => rfl
    refine ⟨(leaveCrc? r.crc (move (accepted true s))).crc, (leaveCrc? r.crc (move (accepted true s))).crcReady,
      typeOne_eq_next.2 (.inr ⟨rfl, r, ?_, ?_⟩), fun h => nomatch h⟩
    · rw [commandWrite_eq_accepted, hr]
    · rw [commandWrite_eq_accepted, raiseVerify_eq_scanBits, leaveCrc?_cfg, leaveCrc?_statusRegister, hbits, hleft]
      generalize (leaveCrc? r.crc (move (accepted true s))).crc = c
      generalize (leaveCrc? r.crc (move (accepted true s))).crcReady = ready
      rw [hmoved, ← assembleStatus_eq true]
      exact congrArg (fun w => assembleStatus { accepted true s with
        trackSelect := cylinder, trackRegister := register, stepDir := dir, crc := c, crcReady := ready
        statusRegister := w }) (BitVec.zero_or).symm

/-! ### Range arithmetic (R256) -/

/-- The clamp by its three ranges. -/
theorem clampTrack_eq (p : Params) (x : Int) :
    clampTrack p x = if x < 0 then 0 else if (p.maxCylinder : Int) < x then p.maxCylinder else x.toNat := by
  unfold clampTrack
  split
  · omega
  · split
    · omega
    · omega

theorem clampTrack_inward (p : Params) (n : Nat) :
    clampTrack p ((n : Int) + StepDir.inward.toInt) = min (n + 1) p.maxCylinder := by
  simp only [clampTrack, StepDir.toInt]
  omega

theorem clampTrack_outward (p : Params) (n : Nat) :
    clampTrack p ((n : Int) + StepDir.outward.toInt) = min (n - 1) p.maxCylinder := by
  simp only [clampTrack, StepDir.toInt]
  omega

theorem sat8_inward (b : Byte) :
    sat8 ((b.toNat : Int) + StepDir.inward.toInt) = if b = 0xFF#8 then 0xFF#8 else b + 1#8 := by
  revert b
  decide +kernel

theorem sat8_outward (b : Byte) :
    sat8 ((b.toNat : Int) + StepDir.outward.toInt) = if b = 0x00#8 then 0x00#8 else b - 1#8 := by
  revert b
  decide +kernel

/-! ### The five commands -/

section
variable {s : State} (h : s.timedOut = false)
include h

theorem exec_restore_of_not_timedOut (hl v : Bool) (r : BitVec 2) :
    exec (.restore hl v r) s = typeOne v moveRestore s := access_of_not_timedOut h _

theorem exec_seek_of_not_timedOut (hl v : Bool) (r : BitVec 2) :
    exec (.seek hl v r) s = typeOne v moveSeek s := access_of_not_timedOut h _

theorem exec_step_of_not_timedOut (u hl v : Bool) (r : BitVec 2) :
    exec (.step u hl v r) s = typeOne v (moveStep u) s := access_of_not_timedOut h _

theorem exec_stepin_of_not_timedOut (u hl v : Bool) (r : BitVec 2) :
    exec (.stepin u hl v r) s = typeOne v (moveStepIn u) s := access_of_not_timedOut h _

theorem exec_stepout_of_not_timedOut (u hl v : Bool) (r : BitVec 2) :
    exec (.stepout u hl v r) s = typeOne v (moveStepOut u) s := access_of_not_timedOut h _

end

/-- Settles O42: where the two movements end. -/
theorem restoreAndSeek : Obligations.RestoreAndSeek := by
  unfold Obligations.RestoreAndSeek
  intro s h v r ht hm
  rw [exec_restore_of_not_timedOut ht, exec_seek_of_not_timedOut ht]
  exact ⟨exists_typeOne .restore v hm rfl rfl rfl, exists_typeOne .seek v hm (clampTrack_eq ..) rfl rfl⟩

/-- The head after one step (R253 to R255). -/
theorem clampTrack_step (p : Params) (n : Nat) (dir : StepDir) :
    clampTrack p ((n : Int) + dir.toInt) =
      match dir with
      | .inward => min (n + 1) p.maxCylinder
      | .outward => min (n - 1) p.maxCylinder := by
  cases dir with
  | inward => exact clampTrack_inward p n
  | outward => exact clampTrack_outward p n

/-- The track register after one step (R253 to R255). -/
theorem trackRegister_step (u : Bool) (b : Byte) (dir : StepDir) :
    (if u then sat8 ((b.toNat : Int) + dir.toInt) else b) =
      match u, dir with
      | false, _ => b
      | true, .inward => if b = 0xFF#8 then 0xFF#8 else b + 1#8
      | true, .outward => if b = 0x00#8 then 0x00#8 else b - 1#8 := by
  cases u with
  | false => rfl
  | true =>
    cases dir with
    | inward => exact sat8_inward b
    | outward => exact sat8_outward b

/-- Settles O43: the three commands are one movement, in the direction they set. -/
theorem stepCommands : Obligations.StepCommands := by
  unfold Obligations.StepCommands
  intro s i dir u h v r ht hm hi
  simp only [List.mem_cons, List.not_mem_nil, or_false, Prod.mk.injEq] at hi
  rcases hi with ⟨rfl, rfl⟩ | ⟨rfl, rfl⟩ | ⟨rfl, rfl⟩
  · rw [exec_step_of_not_timedOut ht]
    exact exists_typeOne (.step u) v hm (clampTrack_step ..) (trackRegister_step ..) rfl
  · rw [exec_stepin_of_not_timedOut ht]
    exact exists_typeOne (.stepIn u) v hm (clampTrack_step s.cfg s.trackSelect .inward)
      (trackRegister_step u s.trackRegister .inward) rfl
  · rw [exec_stepout_of_not_timedOut ht]
    exact exists_typeOne (.stepOut u) v hm (clampTrack_step s.cfg s.trackSelect .outward)
      (trackRegister_step u s.trackRegister .outward) rfl

/-! ### The Command port -/

/-- A command by its byte is the command of the opcode table, behind the prelude (R226). -/
theorem exec_decodeCommand (cb : Byte) (s : State) : exec (decodeCommand cb) s = access (runCommand cb) s := by
  unfold decodeCommand runCommand
  cases decodeOp cb with
  | restore => rfl
  | seek => rfl
  | step => rfl
  | stepIn => rfl
  | stepOut => rfl
  | readSector => rfl
  | writeSector => rfl
  | readAddress => rfl
  | forceInterrupt => rfl
  | readTrack => rfl
  | writeTrack => rfl

/-- The bits a verification sets are no bits of a transfer. -/
theorem StatusOk.verifyBits {p : Params} (h : p.wf = true) (track : Option Track) (cylinder : Byte) :
    StatusOk p true false (verifyBits p track cylinder) := by
  unfold Machine.verifyBits
  extract_lets ids
  split
  · exact .zero p true
  · split
    · exact (StatusOk.mask_seekError h true).or (StatusOk.mask_crcError h true)
    · exact StatusOk.mask_seekError h true

/-- A command that is complete when its write is (R226; 48_controller_type1_type4.md R250, R262). -/
structure Completed (s t : State) : Prop where
  idle : t.cmdInProgress = .none
  target : t.xferTarget = none
  busy : statusHas t .busy = false
  drives : t.drives = s.drives
  images : t.images = s.images
  result : t.result = .nothing

theorem exists_completed_typeOne {move : State → State} (h : HeadMove move) (v : Bool) {s : State}
    (hp : s.cfg.wf = true) (hm : Memory.wf s.images = true) : ∃ t, typeOne v move s = .next t ∧ Completed s t := by
  obtain ⟨c, ready, hnext, -⟩ := exists_typeOne h v hm rfl rfl rfl
  refine ⟨_, hnext, rfl, rfl, ?busy, rfl, rfl, rfl⟩
  case busy =>
    have hverify (track : Option Track) (cylinder : Byte) :
        StatusOk s.cfg true false (if v then verifyBits s.cfg track cylinder else 0x00#8) :=
      (StatusOk.verifyBits hp track cylinder).maskIf v
    have hbits := StatusOk.typeOneBits (s := move (accepted true s)) (by rw [h.accepted_eq]; exact hp)
    rw [typeOneBits_eq, h.accepted_eq] at hbits
    exact (hbits.or (hverify _ _)).busy

theorem completed_forceInterrupt (s : State) : Completed s (forceInterrupt s) := by
  rw [forceInterrupt_eq]
  refine ⟨rfl, rfl, ?busy, rfl, rfl, rfl⟩
  case busy => simp [statusHas, clearBits, Params.mask_getLsbD]

/-- The commands of Type I and Type IV by the complement of the bus byte (30_encoding.md R62). -/
theorem decodeOp_completed {bus : Byte} (h : bus.getLsbD 7 = true ∨ bus.extractLsb' 4 4 = 0x2#4) :
    decodeOp (~~~bus) ∈ [Cmd.restore, .seek, .step, .stepIn, .stepOut, .forceInterrupt] := by
  revert bus
  decide +kernel

theorem exists_completed_runCommand {cb : Byte} {s : State} (hp : s.cfg.wf = true) (hm : Memory.wf s.images = true)
    (h : decodeOp cb ∈ [Cmd.restore, .seek, .step, .stepIn, .stepOut, .forceInterrupt]) :
    ∃ t, runCommand cb s = .next t ∧ Completed s t := by
  unfold runCommand
  generalize decodeOp cb = op at h
  simp only [List.mem_cons, List.not_mem_nil, or_false] at h
  rcases h with rfl | rfl | rfl | rfl | rfl | rfl
  · exact exists_completed_typeOne .restore _ hp hm
  · exact exists_completed_typeOne .seek _ hp hm
  · exact exists_completed_typeOne (.step _) _ hp hm
  · exact exists_completed_typeOne (.stepIn _) _ hp hm
  · exact exists_completed_typeOne (.stepOut _) _ hp hm
  · exact ⟨_, rfl, completed_forceInterrupt s⟩

/-- Settles O40: the port runs what the byte decodes to, and the commands of Type I and IV are complete with it. -/
theorem commandPortWrite : Obligations.CommandPortWrite := by
  unfold Obligations.CommandPortWrite
  refine ⟨fun s bus => (exec_decodeCommand (~~~bus) s).symm, fun s bus ht hp hm hbus => ?complete⟩
  case complete =>
    obtain ⟨t, hrun, hidle, htarget, hbusy, hdrives, himages, hresult⟩ :=
      exists_completed_runCommand hp hm (decodeOp_completed hbus)
    exact ⟨t, (access_of_not_timedOut ht _).trans hrun, hidle, htarget, hbusy, hdrives, himages, hresult⟩

end Sys2Proof.Machine
end

section
/-! SUPPORT and proof that host accesses are honoured (60_exceptions.md R300, R320). What the model refuses are views
that are gone or out of bounds, tracks that are not there and counters out of step; none of these arises from a state
that meets the invariant, with its views in bounds and its captured sector listed, and the prelude of an access leaves
such a state. -/

namespace Sys2Proof.Machine

/-! ### Views in bounds, through every reference -/

/-- Every view of every track a reference names has its whole fields inside the buffer (10_state.md R30 (b)). -/
def ViewsInBounds (s : State) : Prop := ∀ r t, s.track? r = some t → ∀ v ∈ t.sector, InBounds t.data v

theorem ViewsInBounds.of_boundsOk {s : State} (h : boundsOk s = true) : ViewsInBounds s := by
  intro r t ht v hv
  obtain ⟨k, img, hk, himg, htrack, hc, hh⟩ := State.track?_eq_some ht
  obtain ⟨hlo, hhi⟩ := Drives.get_some_range hk
  have hdrive : r.drive ∈ [1, 2, 3] := by
    simp only [List.mem_cons, List.not_mem_nil, or_false]
    omega
  have himage : s.imageIn r.drive = some img := State.imageIn_eq_some.2 ⟨k, hk, himg⟩
  have hall := List.all_eq_true.1 h _ hdrive
  rw [himage] at hall
  simp only [DiskImage.getTrack, hc, hh, and_self, if_true] at htrack
  exact viewInBounds_iff.1 (List.all_eq_true.1 (List.all_eq_true.1 hall t (List.mem_of_getElem? htrack)) v hv)

theorem ViewsInBounds.congr {s s' : State} (h : ViewsInBounds s) (hd : sameDisks s s') : ViewsInBounds s' := by
  intro r t ht
  rw [track?_congr hd.1 hd.2] at ht
  exact h r t ht

/-- The scanner's views are in bounds (46_track_buffer.md R208). -/
theorem inBounds_of_located {p : Params} {fmt : TrackFormat} {clock : List Nat} {data : List Byte} {v : View}
    (hv : v ∈ locateSectors p fmt clock data) : InBounds data v := by
  cases hd : fmt.density? with
  | none => simp [locateSectors, hd] at hv
  | some d =>
    rw [locateSectors_eq_scanned hd] at hv
    obtain ⟨_, _, _, _, _, hadmits⟩ := ((scanned_inv _ data clock le_rfl).found v).1 hv
    obtain ⟨-, -, hid, hdata⟩ := admits_iff.1 hadmits
    exact ⟨hid, hdata⟩

/-- Putting a track whose views are in bounds. -/
theorem ViewsInBounds.putTrack {s : State} (h : ViewsInBounds s) {r : TrackRef} {t t' : Track} (ht : s.track? r = some t)
    (ht' : ∀ v ∈ t'.sector, InBounds t'.data v) : ViewsInBounds (s.putTrack r t') := by
  intro r' u hu
  by_cases hsame : sameTrack s r r'
  · rw [State.track?_putTrack_same t' ht hsame] at hu
    obtain rfl := Option.some.inj hu
    exact ht'
  · rw [State.track?_putTrack_other t' ht hsame] at hu
    exact h r' u hu

/-! ### The tracks of a well-formed memory -/

/-- A track with a sector has a format (46_track_buffer.md R197). -/
theorem exists_density_of_mem {s : State} {r : TrackRef} {t : Track} {v : View} (hm : Memory.wf s.images = true)
    (ht : s.track? r = some t) (hv : v ∈ t.sector) : ∃ d, t.format.density? = some d := by
  have hwf := Memory.wf_track hm ht
  simp only [trackWf, Bool.and_eq_true, Bool.or_eq_true, decide_eq_true_eq] at hwf
  obtain ⟨⟨-, hfmt⟩, -⟩ := hwf
  have hformat : t.format ≠ .unknown := hfmt.resolve_right (List.ne_nil_of_mem hv)
  cases hf : t.format with
  | unknown => exact absurd hf hformat
  | fm => exact ⟨.fm, rfl⟩
  | mfm => exact ⟨.mfm, rfl⟩

theorem lookup_mem {s : State} {t : Track} {v : View} (h : lookup s = some (t, v)) : v ∈ t.sector := by
  unfold lookup at h
  split at h
  · cases h
  · split at h
    · cases h
    · next hfound =>
      cases h
      exact List.mem_of_find?_eq_some hfound

/-! ### States whose accesses are honoured -/

/-- The invariant with the two premises of the claim. -/
structure Serviceable (s : State) : Prop where
  inv : Inv s
  views : ViewsInBounds s
  listed : targetListed s = true

/-- The commit of a write transfer answers: its target is there, and a captured sector is listed and in bounds
(49_controller_type2_type3.md R285, R286). -/
theorem exists_commit {s : State} (hm : Memory.wf s.images = true) (hviews : ViewsInBounds s)
    (hlisted : targetListed s = true) (htarget : targetOk s = true) (hw : s.cmdInProgress.isWrite = true) (n : Nat) :
    ∃ s', commit n s = .next s' := by
  rcases targetOk_iff.1 htarget with ⟨hc, r, v, hx, hthere⟩ | ⟨hc, r, hx, hthere⟩ | ⟨hno, -⟩
  · obtain ⟨t, ht⟩ := Option.isSome_iff_exists.1 hthere
    have hv : v ∈ t.sector := by simpa [targetListed, hx, ht] using hlisted
    obtain ⟨d, hd⟩ := exists_density_of_mem hm ht hv
    obtain ⟨t', c, hwrite, -⟩ := exists_sectorWrite s.cfg d s.dataMark s.dataBuffer (hviews r t ht v hv)
      (idOff_of_viewPlaced (viewPlaced_of_mem hm ht hv)).1
    exact ⟨_, commit_eq_next.2 (.inl ⟨r, v, hc, hx, writeSectorAt_eq_next.2 ⟨t, d, _, ht, hv, hd, hwrite, rfl⟩⟩)⟩
  · obtain ⟨t, ht⟩ := Option.isSome_iff_exists.1 hthere
    exact ⟨_, commit_eq_next.2 (.inr ⟨r, hc, hx, writeTrackAt_eq_next.2 ⟨⟨t, ht⟩, rfl⟩⟩)⟩
  · rw [hw] at hno
    cases hno

/-- The commit of a Write Track leaves the views in bounds: those of its track are the scanner's. -/
theorem ViewsInBounds.commit_writeTrack {s s' : State} {n : Nat} (h : ViewsInBounds s) (hc : s.cmdInProgress = .writeTrack)
    (hcommit : commit n s = .next s') : ViewsInBounds s' := by
  rcases commit_eq_next.1 hcommit with ⟨r, v, hsector, -⟩ | ⟨r, -, -, hwrite⟩
  · rw [hc] at hsector
    cases hsector
  · obtain ⟨⟨t, ht⟩, rfl⟩ := writeTrackAt_eq_next.1 hwrite
    exact (h.putTrack ht fun v hv => inBounds_of_located hv).congr ⟨rfl, rfl⟩

/-- The prelude of an access answers and leaves a state of the same kind (60_exceptions.md R313). -/
theorem Serviceable.checkRevolution {s : State} (h : Serviceable s) :
    ∃ s1, checkRevolution s = .next s1 ∧ Serviceable s1 := by
  cases ht : s.timedOut with
  | false => exact ⟨s, checkRevolution_eq_next.2 (.inl ⟨ht, rfl⟩), h⟩
  | true =>
    have htimed : s.cmdInProgress.timed = true := by
      rw [State.timedOut, Bool.and_eq_true] at ht
      exact ht.1
    have hended {s2 : State} (hnext : Machine.checkRevolution s = .next (complete s2)) (hviews : ViewsInBounds s2) :
        ∃ s1, Machine.checkRevolution s = .next s1 ∧ Serviceable s1 :=
      ⟨_, hnext, h.inv.checkRevolution hnext, hviews.congr ⟨rfl, rfl⟩, rfl⟩
    cases hc : s.cmdInProgress with
    | readTrack => exact hended (checkRevolution_eq_next.2 (.inr (.inl ⟨ht, hc, rfl⟩))) h.views
    | writeTrack =>
      obtain ⟨s2, hcommit⟩ := exists_commit h.inv.memory h.views h.listed h.inv.target (by rw [hc]; rfl)
        (s.bytesExpected - s.bytesLeft)
      exact hended (checkRevolution_eq_next.2 (.inr (.inr ⟨ht, hc, s2, hcommit, rfl⟩)))
        (h.views.commit_writeTrack hc hcommit)
    | none => rw [hc] at htimed; cases htimed
    | readSector => rw [hc] at htimed; cases htimed
    | writeSector => rw [hc] at htimed; cases htimed
    | readAddress => rw [hc] at htimed; cases htimed

theorem Serviceable.access {s : State} (h : Serviceable s) {body : State → Out}
    (hbody : ∀ s1, Serviceable s1 → ∃ s', body s1 = .next s') : ∃ s', access body s = .next s' := by
  obtain ⟨s1, hnext, h1⟩ := h.checkRevolution
  obtain ⟨s', hs'⟩ := hbody s1 h1
  exact ⟨s', access_eq_next.2 ⟨s1, hnext, hs'⟩⟩

/-! ### The rules answer -/

section
variable {s : State}

theorem Serviceable.typeOne (h : Serviceable s) {move : State → State} (hm : HeadMove move) (v : Bool) :
    ∃ s', Machine.typeOne v move s = .next s' := by
  obtain ⟨c, ready, hnext, -⟩ := exists_typeOne hm v h.inv.memory rfl rfl rfl
  exact ⟨_, hnext⟩

theorem Serviceable.cmdReadSector (h : Serviceable s) : ∃ s', cmdReadSector s = .next s' := by
  cases hl : lookup s with
  | none => exact ⟨_, cmdReadSector_of_not_found hl⟩
  | some found =>
    obtain ⟨t, v⟩ := found
    have ht := lookup_curTrack hl
    have hv := lookup_mem hl
    have hb := h.views _ t ht v hv
    obtain ⟨d, hd⟩ := exists_density_of_mem h.inv.memory ht hv
    have hmark : t.data[v.dataOff]? = some (t.data.getD v.dataOff 0#8) :=
      getElem?_eq_getD (by have := hb.dataEnd; omega)
    exact ⟨_, cmdReadSector_of_found hl hd hb hmark⟩

theorem Serviceable.cmdWriteSector (h : Serviceable s) (a1 a0 : Bool) : ∃ s', cmdWriteSector a1 a0 s = .next s' := by
  cases hp : protectedNow s with
  | true => exact ⟨_, cmdWriteSector_of_protected hp a1 a0⟩
  | false =>
    cases hl : lookup s with
    | none => exact ⟨_, cmdWriteSector_of_not_found hp hl a1 a0⟩
    | some found =>
      obtain ⟨t, v⟩ := found
      exact ⟨_, cmdWriteSector_of_found hp hl (h.views _ t (lookup_curTrack hl) v (lookup_mem hl)) a1 a0⟩

theorem Serviceable.cmdReadAddress (h : Serviceable s) : ∃ s', cmdReadAddress s = .next s' := by
  by_cases hnone : ∀ t, s.curTrack = some t → t.sector = []
  · exact ⟨_, cmdReadAddress_of_no_sector hnone⟩
  · simp only [not_forall] at hnone
    obtain ⟨t, ht, hsector⟩ := hnone
    obtain ⟨v, rest, hlist⟩ := List.exists_cons_of_ne_nil hsector
    have hv : v ∈ t.sector := hlist ▸ List.mem_cons_self
    obtain ⟨d, hd⟩ := exists_density_of_mem h.inv.memory ht hv
    exact ⟨_, cmdReadAddress_of_sector ht (by rw [hlist]; rfl) hd (h.views _ t ht v hv).idEnd⟩

theorem exists_cmdReadTrack (s : State) : ∃ s', cmdReadTrack s = .next s' := by
  by_cases hnone : ∀ t, s.curTrack = some t → t.format = .unknown ∨ t.data = []
  · exact ⟨_, cmdReadTrack_of_no_data hnone⟩
  · simp only [not_forall, not_or] at hnone
    obtain ⟨t, ht, hfmt, hdata⟩ := hnone
    exact ⟨_, cmdReadTrack_of_data ht hfmt hdata⟩

theorem exists_cmdWriteTrack (s : State) : ∃ s', cmdWriteTrack s = .next s' := by
  cases hp : protectedNow s with
  | true => exact ⟨_, cmdWriteTrack_of_protected hp⟩
  | false =>
    cases ht : s.curTrack with
    | none => exact ⟨_, cmdWriteTrack_of_no_track hp ht⟩
    | some t => exact ⟨_, cmdWriteTrack_of_track hp ht⟩

/-- Every command byte is a command that answers (47_controller_interface.md R226). -/
theorem Serviceable.runCommand (h : Serviceable s) (cb : Byte) : ∃ s', runCommand cb s = .next s' := by
  unfold Machine.runCommand
  cases decodeOp cb with
  | restore => exact h.typeOne .restore _
  | seek => exact h.typeOne .seek _
  | step => exact h.typeOne (.step _) _
  | stepIn => exact h.typeOne (.stepIn _) _
  | stepOut => exact h.typeOne (.stepOut _) _
  | readSector => exact h.cmdReadSector
  | writeSector => exact h.cmdWriteSector _ _
  | readAddress => exact h.cmdReadAddress
  | forceInterrupt => exact ⟨_, rfl⟩
  | readTrack => exact exists_cmdReadTrack s
  | writeTrack => exact exists_cmdWriteTrack s

/-- The read pointer of a read transfer is on a byte of the buffer (10_state.md R18). -/
theorem Serviceable.readData (h : Serviceable s) : ∃ s', readData s = .next s' := by
  cases hr : s.cmdInProgress.isRead with
  | false => exact ⟨_, readData_of_not_isRead hr⟩
  | true =>
    obtain ⟨hlen, hpos, hptr⟩ := (transferOk_iff_of_isRead hr).1 h.inv.transfer
    have hin : s.readDataPtr < s.dataBuffer.length := by omega
    rw [readData_of_isRead hr]
    exact ⟨_, transferRead_eq_next.2 ⟨_, List.getElem?_eq_getElem hin, rfl⟩⟩

/-- The place of the next byte of a write transfer is in the buffer, and the last byte commits (R18). -/
theorem Serviceable.writeData (h : Serviceable s) (b : Byte) : ∃ s', writeData b s = .next s' := by
  cases hw : s.cmdInProgress.isWrite with
  | false => exact ⟨_, writeData_of_not_isWrite hw b⟩
  | true =>
    obtain ⟨hlen, hpos, hle⟩ := (transferOk_iff_of_isWrite hw).1 h.inv.transfer
    have hin : s.bytesExpected - s.bytesLeft < s.dataBuffer.length := by omega
    have hstore : Machine.writeData b s = transferWrite b (reply .nothing { s with dataRegister := b }) := if_pos hw
    rw [hstore]
    by_cases hlast : s.bytesLeft - 1 = 0
    · obtain ⟨s1, hcommit⟩ := exists_commit
        (s := { reply .nothing { s with dataRegister := b } with
          dataBuffer := s.dataBuffer.set (s.bytesExpected - s.bytesLeft) b, bytesLeft := s.bytesLeft - 1 })
        h.inv.memory (h.views.congr ⟨rfl, rfl⟩) h.listed h.inv.target hw s.bytesExpected
      exact ⟨_, transferWrite_eq_next.2 ⟨hin, .inr ⟨hlast, s1, hcommit, rfl⟩⟩⟩
    · exact ⟨_, transferWrite_eq_next.2 ⟨hin, .inl ⟨hlast, rfl⟩⟩⟩

/-- Every command, port access and CRU write answers. -/
theorem Serviceable.exec (h : Serviceable s) {i : Instr}
    (hi : i.format = .cmd8 ∨ i.format = .port ∨ i.format = .cru8) : ∃ s', exec i s = .next s' := by
  cases i with
  | restore _ v _ => exact h.access fun _ h1 => h1.typeOne .restore v
  | seek _ v _ => exact h.access fun _ h1 => h1.typeOne .seek v
  | step u _ v _ => exact h.access fun _ h1 => h1.typeOne (.step u) v
  | stepin u _ v _ => exact h.access fun _ h1 => h1.typeOne (.stepIn u) v
  | stepout u _ v _ => exact h.access fun _ h1 => h1.typeOne (.stepOut u) v
  | rdsec _ _ _ _ _ => exact h.access fun _ h1 => h1.cmdReadSector
  | wrsec _ _ _ ca1 a0 => exact h.access fun _ h1 => h1.cmdWriteSector ca1 a0
  | rdaddr _ => exact h.access fun _ h1 => h1.cmdReadAddress
  | forceint _ => exact h.access fun _ _ => ⟨_, rfl⟩
  | rdtrk _ => exact h.access fun s1 _ => exists_cmdReadTrack s1
  | wrtrk _ => exact h.access fun s1 _ => exists_cmdWriteTrack s1
  | rsta => exact h.access fun _ _ => ⟨_, rfl⟩
  | rtrk => exact h.access fun _ _ => ⟨_, rfl⟩
  | rsec => exact h.access fun _ _ => ⟨_, rfl⟩
  | rdat => exact h.access fun _ h1 => h1.readData
  | wcmd bus => exact h.access fun _ h1 => h1.runCommand (invert bus)
  | wtrk _ => exact h.access fun _ _ => ⟨_, rfl⟩
  | wsec _ => exact h.access fun _ _ => ⟨_, rfl⟩
  | wdat bus => exact h.access fun _ h1 => h1.writeData (invert bus)
  | cru0 _ => exact ⟨_, rfl⟩
  | cru1 _ => exact ⟨_, rfl⟩
  | cru2 _ => exact ⟨_, rfl⟩
  | cru3 _ => exact ⟨_, rfl⟩
  | cru4 _ => exact ⟨_, rfl⟩
  | cru5 _ => exact ⟨_, rfl⟩
  | cru6 _ => exact ⟨_, rfl⟩
  | cru7 _ => exact ⟨_, rfl⟩
  | _ => rcases hi with hi | hi | hi <;> cases hi

end

/-- Settles O57: the prelude keeps the premises, and from them every rule answers. -/
theorem hostAccessNeverRefused : Obligations.HostAccessNeverRefused := by
  unfold Obligations.HostAccessNeverRefused
  exact fun s i hinv hbounds hlisted hi =>
    Serviceable.exec ⟨hinv, ViewsInBounds.of_boundsOk hbounds, hlisted⟩ hi

end Sys2Proof.Machine
end
